-- ==== Sys2Proof/Word.lean ====
section
/-! DEFINITION. The words of the part's frames and images, and the numbers of its ports and pools. -/

namespace Sys2Proof

/-- One byte of a frame or of an image (00_scope.md, Byte and bit order). -/
abbrev Byte := BitVec 8

/-- A two-byte field of a frame: a handle, a ticket, a mask, a number of units. -/
abbrev Word := BitVec 16

/-- A host port, P0 to P3 (00_scope.md, Signals). -/
abbrev Port := Fin 4

/-- A pool number, 0 to 7 (R1). -/
abbrev PoolNo := Fin 8

/-- A slot of the grant table, 0 to 63 (R22). -/
abbrev GrantNo := Fin 64

/-- A slot of the wait table, 0 to 31 (R39). -/
abbrev WaitNo := Fin 32

/-- An interlock token, 0 to 15 (R66). -/
abbrev TokenNo := Fin 16

/-- An image slot of the profile store, 0 to 3 (R144). -/
abbrev SlotNo := Fin 4

end Sys2Proof
end

