-- ==== Sys2Proof/Config.lean ====
section
/-! DEFINITION. The numbers the part fixes. The spec leaves no value open that the model would have to hold as a
free value here: what it leaves open (a cut seal, a failed read-back, a disturbed retained area or slot) is an
operand of the step concerned (log entries 9, 11, 25 and 31). -/

namespace Sys2Proof.Config

/-- The most notices a notice queue holds (R117). -/
def noticeLimit : Nat := 8

/-- The most live wait records of one port (R42). -/
def waitsPerPort : Nat := 8

/-- The highest generation of a grant slot (R23). -/
def lastGrantGeneration : Nat := 1023

/-- The highest generation of a wait slot (R40). -/
def lastWaitGeneration : Nat := 2047

/-- The restart counter stays at this value (R133). -/
def lastRestart : Nat := 255

/-- An unprogrammed byte of an image slot, and a byte of the staging buffer after a start (R144, R155). -/
def unprogrammed : Byte := 0xFF

/-- The byte MISO shifts after the last byte of a reply, and the first byte of a FILL (R160, R161). -/
def fill : Byte := 0xFF

/-- The seal mark of byte 253 (R148). -/
def sealMark : Byte := 0x5A

/-- The wait field that asks for no deadline (R44, R174). -/
def unlimitedWait : Word := 65535

/-- The divider, in kHz, while no image is loaded (R152). -/
def unloadedClock : Nat := 16000

end Sys2Proof.Config
end

