-- ==== Sys2Proof/Syntax.lean ====
section
/-! DEFINITION. The steps of the part: one constructor of `Instr` for each row of spec/opcode_table.json. -/

namespace Sys2Proof

/-- The two sag groups that a line can name; line SAGA serves group A and line SAGB group B (R81). -/
inductive SagGroup where
  | a
  | b
  deriving DecidableEq, Repr

/-- The level of an input pin. A sag input is asserted while it is high (R81). -/
inductive Level where
  | low
  | high
  deriving DecidableEq, Repr

/-- A request of the allocation core with its operands, as the frame layouts give them (R173). -/
inductive Command where
  | att (lease : Word)
  | det
  | rsv (pool : Byte) (floor max wait : Word)
  | adj (handle units : Word)
  | rel (handle : Word)
  | can (ticket : Word)
  | cnf (handle : Word)
  | qgr (handle : Word)
  | qpl (pool : Byte)
  | qpt
  | qdv
  | clm (mask : Word) (mode watch : Byte)
  | drp (mask : Word)
  | cnt (mask : Word)
  | uwt (mask : Word)
  | scp (pool : Byte) (nominal derated : Word)
  | rvk (handle : Word)
  | evc (target : Byte)
  | rsr
  | srd (slot block : Byte)
  | stg (block : Byte) (data : List Byte)
  | chk
  | sel
  deriving DecidableEq, Repr

/-- A request frame as the port controller hands it to the core: the tag and the command (R163). -/
structure Request where
  tag     : Byte
  command : Command
  deriving DecidableEq, Repr

/-- How far a seal had gone when it was cut (R158): the writes wholly made, in the order of R157 (bytes 0 to 252,
254, 255, then 253), and the bits of the byte then under programming that had not yet been turned to 0. The spec
fixes neither, so both are operands (log entry 11). -/
structure SealCut where
  writes       : Nat
  unprogrammed : Byte
  deriving DecidableEq, Repr

/-- How a seal ended (R157 steps 4 to 7): every byte read back as intended and the slot holds them when it is classified;
or the byte of the write of the given number, in the order of R157, had its bits turned as the given value has them and not
as intended, and was read back so (log entry 11); or every byte read back as intended and the classification then found more
bits turned to 0 in the bytes at the given addresses, those that the given values have 0 (R144, log entry 31). -/
inductive SealResult where
  | whole
  | readBackDiffers (write : Nat) (value : Byte)
  | foundOtherwise (turned : List (Nat × Byte))
  deriving DecidableEq, Repr

/-- The levels of SAGA and SAGB that a tick samples (R82). -/
structure SagLevels where
  a : Level
  b : Level
  deriving DecidableEq, Repr

/-- Bits of one byte of an image slot that turn from 1 to 0 while the part runs: those that `kept` has 0 (R144, R145, log
entry 25). -/
structure Disturbance where
  slot    : SlotNo
  address : Fin 256
  kept    : Byte
  deriving DecidableEq, Repr

/-- The rows of the table. `port` is the port a step is about; `mosi` the whole bytes received in a transaction
(R160); `tag` the tag of the request the core takes. -/
inductive Instr where
  -- the host port link
  | nop (port : Port) (mosi : List Byte)
  | rpt (port : Port) (mosi : List Byte)
  | ntf (port : Port) (mosi : List Byte)
  | fill (port : Port) (mosi : List Byte)
  | csnFall (port : Port)
  | requestTaken (port : Port) (mosi : List Byte)
  | frameError (port : Port) (mosi : List Byte)
  | unknown (port : Port) (mosi : List Byte)
  | pending (port : Port) (mosi : List Byte)
  /-- `before` is how many bytes were shifted before a reset was entered, for a transaction that a reset cut (R168). -/
  | notReady (port : Port) (mosi : List Byte) (before : Nat)
  | replyPlaced (port : Port)
  -- the requests of the core
  | att (port : Port) (tag : Byte) (lease : Word)
  | det (port : Port) (tag : Byte)
  | rsv (port : Port) (tag : Byte) (pool : Byte) (floor max wait : Word)
  | adj (port : Port) (tag : Byte) (handle units : Word)
  | rel (port : Port) (tag : Byte) (handle : Word)
  | can (port : Port) (tag : Byte) (ticket : Word)
  | cnf (port : Port) (tag : Byte) (handle : Word)
  | qgr (port : Port) (tag : Byte) (handle : Word)
  | qpl (port : Port) (tag : Byte) (pool : Byte)
  | qpt (port : Port) (tag : Byte)
  | qdv (port : Port) (tag : Byte)
  | clm (port : Port) (tag : Byte) (mask : Word) (mode watch : Byte)
  | drp (port : Port) (tag : Byte) (mask : Word)
  | cnt (port : Port) (tag : Byte) (mask : Word)
  | uwt (port : Port) (tag : Byte) (mask : Word)
  | scp (port : Port) (tag : Byte) (pool : Byte) (nominal derated : Word)
  | rvk (port : Port) (tag : Byte) (handle : Word)
  | evc (port : Port) (tag : Byte) (target : Byte)
  | rsr (port : Port) (tag : Byte)
  | srd (port : Port) (tag : Byte) (slot block : Byte)
  | stg (port : Port) (tag : Byte) (block : Byte) (data : List Byte)
  | chk (port : Port) (tag : Byte)
  | sel (port : Port) (tag : Byte)
  | sealEnd (result : SealResult)
  -- notices and timers
  | noticePost (port : Port)
  /-- The levels are those of SAGA and SAGB when the tick samples them (R82); `disturbed` is what has been disturbed in the
  image slots since the last tick (R145, log entry 25). -/
  | tick (lines : SagLevels) (disturbed : List Disturbance)
  | leaseExpiry (port : Port)
  | lapse (port : Port)
  | deadlineExpiry (ticket : Word)
  | expiryEvent (ticket : Word)
  | lineAsserted (line : SagGroup)
  | lineDeasserted (line : SagGroup)
  | qualifyTimerExpiry (line : SagGroup)
  | restoreTimerExpiry (line : SagGroup)
  | derateEvent (group : SagGroup)
  | restoreEvent (group : SagGroup)
  | auditTimerExpiry
  | auditEnd
  -- resets and starts
  | rstnLow
  | warmReset (cut : SealCut)
  | rstnHigh
  /-- `disturbed` says that the retained area was disturbed while the part was in reset (R132, log entry 9). -/
  | warmStart (disturbed : Bool)
  | powerOn
  /-- `prog` is the level of PROG sampled at the beginning of the start (R150). -/
  | coldStart (prog : Level)
  | powerInterruption (cut : SealCut)
  deriving DecidableEq, Repr

end Sys2Proof
end

