-- ==== Sys2Proof/Decode.lean ====
section
/-! DEFINITION. Reading what a transaction carried on MOSI: the CRC-8, the frame lengths and codes, and the
examination of a frame (R163, R166, R173). The opcode table gives no row any bits, so a word spells no command. -/

namespace Sys2Proof

/-- Shift a check register left by `k` bits, taking off the polynomial when a 1 leaves it. -/
def crcShift {w : Nat} (poly : BitVec w) : Nat → BitVec w → BitVec w
  | 0, c => c
  | k + 1, c => crcShift poly k (if c.msb then (c <<< 1) ^^^ poly else c <<< 1)

/-- The CRC-8 of a frame: polynomial 0x07, initial value 0x00, most significant bit first (R163). -/
def crc8 (bytes : List Byte) : Byte :=
  bytes.foldl (fun c b => crcShift 0x07 8 (c ^^^ b)) 0

/-- The CRC-16 of an image: polynomial 0x1021, initial value 0xFFFF, most significant bit first (R148). -/
def crc16 (bytes : List Byte) : Word :=
  bytes.foldl (fun c b => crcShift 0x1021 8 (c ^^^ ((b.setWidth 16 : Word) <<< (8 : Nat)))) 0xFFFF

/-- The two bytes at `i`, high byte first (R163). -/
def wordAt (bytes : List Byte) (i : Nat) : Word :=
  (bytes.getD i 0) ++ (bytes.getD (i + 1) 0)

/-- The request length of each command code, 3 bytes and the payload; `none` for a byte that is no command code (R173). -/
def frameLength (code : Byte) : Option Nat :=
  match code.toNat with
  | 0x01 => some 3
  | 0x02 => some 3
  | 0x03 => some 3
  | 0x10 => some 5
  | 0x11 => some 3
  | 0x20 => some 10
  | 0x21 => some 7
  | 0x22 => some 5
  | 0x23 => some 5
  | 0x24 => some 5
  | 0x28 => some 5
  | 0x29 => some 4
  | 0x2A => some 3
  | 0x2B => some 3
  | 0x30 => some 7
  | 0x31 => some 5
  | 0x32 => some 5
  | 0x33 => some 5
  | 0x40 => some 8
  | 0x41 => some 5
  | 0x42 => some 4
  | 0x43 => some 3
  | 0x60 => some 5
  | 0x61 => some 20
  | 0x62 => some 3
  | 0x63 => some 3
  | _ => none

/-- The core's command of a code with its payload `p` in the layout of R173; `none` for a code the core does not handle. -/
def commandOf (code : Byte) (p : List Byte) : Option Command :=
  match code.toNat with
  | 0x10 => some (.att (wordAt p 0))
  | 0x11 => some .det
  | 0x20 => some (.rsv (p.getD 0 0) (wordAt p 1) (wordAt p 3) (wordAt p 5))
  | 0x21 => some (.adj (wordAt p 0) (wordAt p 2))
  | 0x22 => some (.rel (wordAt p 0))
  | 0x23 => some (.can (wordAt p 0))
  | 0x24 => some (.cnf (wordAt p 0))
  | 0x28 => some (.qgr (wordAt p 0))
  | 0x29 => some (.qpl (p.getD 0 0))
  | 0x2A => some .qpt
  | 0x2B => some .qdv
  | 0x30 => some (.clm (wordAt p 0) (p.getD 2 0) (p.getD 3 0))
  | 0x31 => some (.drp (wordAt p 0))
  | 0x32 => some (.cnt (wordAt p 0))
  | 0x33 => some (.uwt (wordAt p 0))
  | 0x40 => some (.scp (p.getD 0 0) (wordAt p 1) (wordAt p 3))
  | 0x41 => some (.rvk (wordAt p 0))
  | 0x42 => some (.evc (p.getD 0 0))
  | 0x43 => some .rsr
  | 0x60 => some (.srd (p.getD 0 0) (p.getD 1 0))
  | 0x61 => some (.stg (p.getD 0 0) (p.drop 1))
  | 0x62 => some .chk
  | 0x63 => some .sel
  | _ => none

/-- What the examination of R166 finds in the bytes of a transaction. -/
inductive Examined where
  /-- no whole byte was clocked (R160) -/
  | noByte
  | fill
  /-- an unknown code with at least 2 bytes; the tag echoed is the second byte -/
  | unknown (tag : Byte)
  /-- an unknown code alone, a short frame or a bad CRC-8, with the tag echoed -/
  | frameError (tag : Byte)
  | nop (tag : Byte)
  | rpt (tag : Byte)
  | ntf (tag : Byte)
  /-- a whole frame with a good CRC-8 and a code of the core -/
  | request (r : Request)
  deriving DecidableEq, Repr

/-- What a whole frame with a good CRC-8 asks for. -/
def frameOf (code tag : Byte) (payload : List Byte) : Examined :=
  if code = 0x01 then .nop tag
  else if code = 0x02 then .rpt tag
  else if code = 0x03 then .ntf tag
  else
    match commandOf code payload with
    | some c => .request ⟨tag, c⟩
    | none => .unknown tag

/-- The examination of the bytes received on MOSI, in the order of R166. -/
def examine : List Byte → Examined
  | [] => .noByte
  | code :: rest =>
    if code = Config.fill then .fill
    else
      match frameLength code with
      | none =>
        match rest with
        | [] => .frameError 0
        | tag :: _ => .unknown tag
      | some len =>
        let tag := rest.headD 0
        let frame := (code :: rest).take len
        if (code :: rest).length < len then .frameError tag
        else if crc8 frame.dropLast ≠ frame.getLastD 0 then .frameError tag
        else frameOf code tag ((frame.drop 2).dropLast)

/-- The two bytes of a field, high byte first (R163). -/
def wordBytes (w : Word) : List Byte := [w.extractLsb' 8 8, w.extractLsb' 0 8]

/-- The code of a core command (R173). -/
def Command.code : Command → Byte
  | .att _ => 0x10
  | .det => 0x11
  | .rsv _ _ _ _ => 0x20
  | .adj _ _ => 0x21
  | .rel _ => 0x22
  | .can _ => 0x23
  | .cnf _ => 0x24
  | .qgr _ => 0x28
  | .qpl _ => 0x29
  | .qpt => 0x2A
  | .qdv => 0x2B
  | .clm _ _ _ => 0x30
  | .drp _ => 0x31
  | .cnt _ => 0x32
  | .uwt _ => 0x33
  | .scp _ _ _ => 0x40
  | .rvk _ => 0x41
  | .evc _ => 0x42
  | .rsr => 0x43
  | .srd _ _ => 0x60
  | .stg _ _ => 0x61
  | .chk => 0x62
  | .sel => 0x63

/-- The request payload of a core command (R173). -/
def Command.payload : Command → List Byte
  | .att lease => wordBytes lease
  | .det => []
  | .rsv pool floor max wait => pool :: (wordBytes floor ++ wordBytes max ++ wordBytes wait)
  | .adj handle units => wordBytes handle ++ wordBytes units
  | .rel handle => wordBytes handle
  | .can ticket => wordBytes ticket
  | .cnf handle => wordBytes handle
  | .qgr handle => wordBytes handle
  | .qpl pool => [pool]
  | .qpt => []
  | .qdv => []
  | .clm mask mode watch => wordBytes mask ++ [mode, watch]
  | .drp mask => wordBytes mask
  | .cnt mask => wordBytes mask
  | .uwt mask => wordBytes mask
  | .scp pool nominal derated => pool :: (wordBytes nominal ++ wordBytes derated)
  | .rvk handle => wordBytes handle
  | .evc target => [target]
  | .rsr => []
  | .srd slot block => [slot, block]
  | .stg block data => block :: data
  | .chk => []
  | .sel => []

/-- A frame: code, tag, payload and the CRC-8 over them (R163). -/
def frameBytes (code tag : Byte) (payload : List Byte) : List Byte :=
  let body := code :: tag :: payload
  body ++ [crc8 body]

/-- The frame in which a host sends a request of the core (R163, R173). -/
def Request.frame (r : Request) : List Byte := frameBytes r.command.code r.tag r.command.payload

/-- The command a table word spells: no row of the table has bits, so none. -/
def decodeTableWord (_nbits _w : Nat) : Option Instr := none

end Sys2Proof
end

