-- ==== Sys2Proof/Machine/State.lean ====
section
/-! DEFINITION. The state of the part, every piece the spec gives it, and the state after reset. -/

namespace Sys2Proof.Machine

/-- Why a step would stop the part with a fault. No rule of the spec stops the part: a request that cannot be met is
answered with a status, and a bad frame is answered FRAME_ERROR or UNKNOWN. So there is none. -/
inductive Fault where
  deriving DecidableEq, Repr

/-- Why the model would give a step no meaning. -/
inductive Refusal where
  /-- Raised by an arm of exec whose row has no meaning yet; safe. No arm raises it. -/
  | notModelled (mnemonic : String)
  deriving DecidableEq, Repr

/-! ## Memory -/

/-- Addressed bytes 0 to 255 of an image slot or of the staging buffer (R144, R155): addresses strictly rising, and
no entry equal to what an unlisted address reads as, `Config.unprogrammed`. -/
abbrev Memory := List Host.Cell

/-! ## The loaded profile copy -/

/-- The two times of a sag line record (R146). -/
structure SagTimes where
  qualify : Nat
  restore : Nat
  deriving DecidableEq, Repr

/-- How a pool's queue is served (R51, R52). -/
inductive Policy where
  | ordered
  | fit
  deriving DecidableEq, Repr

/-- The pool figures of the profile (R1, R147). A sag group of `none` is NONE. -/
structure PoolProfile where
  defined : Bool
  parent  : Option PoolNo
  nominal : Nat
  derated : Nat
  group   : Option SagGroup
  policy  : Policy
  deriving DecidableEq, Repr

/-- The port record of the profile (R100, R103, R8). Priority 0 is the highest. -/
structure PortProfile where
  priority  : Fin 4
  reserve   : Bool
  interlock : Bool
  supervise : Bool
  leaseMin  : Nat
  leaseMax  : Nat
  quotas    : Vector Nat 8
  deriving DecidableEq, Repr

/-- The loaded profile copy (R147). Image version 0 says that no image is loaded (R151, log entry 16). -/
structure Profile where
  version    : Nat
  clock      : Nat
  pools      : Vector PoolProfile 8
  ports      : Vector PortProfile 4
  tokenCount : Nat
  sagA       : SagTimes
  sagB       : SagTimes
  auditTime  : Nat
  locked     : Bool
  siteLabel  : Vector Byte 16
  deriving DecidableEq, Repr

/-- An undefined pool as loading gives it (R147). -/
def PoolProfile.undefined : PoolProfile :=
  { defined := false, parent := none, nominal := 0, derated := 0, group := none, policy := .ordered }

/-- A port's record in the UNCONFIGURED copy (R151). -/
def PortProfile.unconfigured : PortProfile :=
  { priority := 3, reserve := false, interlock := false, supervise := false, leaseMin := 20, leaseMax := 60000,
    quotas := Vector.replicate 8 0 }

/-- The UNCONFIGURED copy (R151). Its divider is that of R152 (log entry 16). -/
def Profile.unconfigured : Profile :=
  { version := 0, clock := Config.unloadedClock, pools := Vector.replicate 8 PoolProfile.undefined,
    ports := Vector.replicate 4 PortProfile.unconfigured, tokenCount := 0,
    sagA := { qualify := 1000, restore := 60000 }, sagB := { qualify := 1000, restore := 60000 },
    auditTime := 10000, locked := false, siteLabel := Vector.replicate 16 0xFF }

/-! ## Pools, grants and wait records -/

/-- Which capacity of a pool applies (R4). -/
inductive DerateState where
  | normal
  | derated
  deriving DecidableEq, Repr

/-- A pool record (R1). The queue lists the wait slots of the pool's records, head first (log entry 18). -/
structure Pool where
  defined     : Bool
  parent      : Option PoolNo
  nominal     : Nat
  derated     : Nat
  group       : Option SagGroup
  policy      : Policy
  derateState : DerateState
  charged     : Nat
  queue       : List WaitNo
  deriving DecidableEq, Repr

/-- A pool record as a cold start takes it from the profile (R20). -/
def Pool.ofProfile (p : PoolProfile) : Pool :=
  { defined := p.defined, parent := p.parent, nominal := p.nominal, derated := p.derated, group := p.group,
    policy := p.policy, derateState := .normal, charged := 0, queue := [] }

/-- Whether a live grant has been confirmed since the last warm reset (R22). -/
inductive GrantState where
  | active
  | audit
  deriving DecidableEq, Repr

/-- A live grant (R22). -/
structure Grant where
  state : GrantState
  port  : Port
  pool  : PoolNo
  units : Nat
  floor : Nat
  deriving DecidableEq, Repr

/-- A slot of the grant table; FREE when it holds no grant (R22). -/
structure GrantSlot where
  generation : Nat
  grant      : Option Grant
  deriving DecidableEq, Repr

/-- A live wait record (R39). A deadline of `none` is UNLIMITED. -/
structure WaitRecord where
  port     : Port
  pool     : PoolNo
  floor    : Nat
  max      : Nat
  priority : Fin 4
  deadline : Option Nat
  tag      : Byte
  deriving DecidableEq, Repr

/-- A slot of the wait table; FREE when it holds no record (R39). -/
structure WaitSlot where
  generation : Nat
  record     : Option WaitRecord
  deriving DecidableEq, Repr

/-! ## Tokens, sessions, the audit window, starts -/

/-- A token's state with its holder (R66): a FREE token has none, a HELD or AUDIT one exactly one (law L7). -/
inductive Token where
  | free
  | held (holder : Port)
  | audit (holder : Port)
  deriving DecidableEq, Repr

/-- A session's state (R99). -/
inductive SessionState where
  | detached
  | attached
  | lapsed
  | recovering
  deriving DecidableEq, Repr

/-- The cause of a lapse (R99). -/
inductive LapseCause where
  | lease
  | evicted
  deriving DecidableEq, Repr

/-- A session record (R99). A lease period of 0 is none set. -/
structure Session where
  state       : SessionState
  leasePeriod : Nat
  lapseCause  : Option LapseCause
  deriving DecidableEq, Repr

/-- A session after a cold start (R115). -/
def Session.initial : Session := { state := .detached, leasePeriod := 0, lapseCause := none }

/-- The audit window (R137). -/
structure AuditWindow where
  isOpen    : Bool
  remaining : Nat
  deriving DecidableEq, Repr

/-- The window while it is closed (R137). -/
def AuditWindow.closed : AuditWindow := { isOpen := false, remaining := 0 }

/-- The kind of the last completed start (R133). -/
inductive StartKind where
  | cold
  | warm
  | warmLost
  deriving DecidableEq, Repr

/-- Whether the stored retention signature matches the retained area (R132). How the check value is computed is not in
the spec, so the model holds the comparison's result alone (log entry 9). -/
inductive Signature where
  | matching
  | differing
  deriving DecidableEq, Repr

/-! ## Notices and replies -/

/-- The cause a WAIT_ENDED notice carries (R118). -/
inductive WaitEnd where
  | expired
  | quota
  deriving DecidableEq, Repr

/-- The cause a REVOKED notice carries (R118). -/
inductive RevokeCause where
  | shed
  | supervisor
  | auditEnd
  deriving DecidableEq, Repr

/-- A notice with the fields its kind carries (R118). -/
inductive Notice where
  | granted (ticket handle units : Nat) (tag : Byte)
  | waitEnded (ticket : Nat) (cause : WaitEnd) (tag : Byte)
  | trimmed (handle units : Nat)
  | revoked (handle : Nat) (cause : RevokeCause)
  | tokenFree (mask : Word)
  | lapsed (cause : LapseCause)
  deriving DecidableEq, Repr

/-- The status codes of R173, by name. -/
inductive Status where
  | ok
  | queued
  | partly
  | frameError
  | unknown
  | notReady
  | pending
  | noReply
  | notAttached
  | lapsed
  | noRight
  | noProfile
  | locked
  | commissioning
  | badPool
  | badValue
  | badHandle
  | badTicket
  | badToken
  | noRoom
  | overQuota
  | tableFull
  | queueFull
  | conflict
  | inAudit
  | notAudit
  | noSlot
  | stagingInvalid
  | sealFailed
  deriving DecidableEq, Repr

/-- A reply frame less its CRC-8, which is computed when the reply is shifted (R164). -/
structure Reply where
  status  : Status
  tag     : Byte
  flags   : Byte
  payload : List Byte
  deriving DecidableEq, Repr

/-- The core's answer to the request of `port`, made and not yet placed (R167). -/
structure Answer where
  port    : Port
  status  : Status
  payload : List Byte
  deriving DecidableEq, Repr

/-! ## Port controllers -/

/-- What decides how a transaction ends (R161, R162, R168). -/
inductive TransactionKind where
  | notReady
  | pending
  | fromSlot
  | noReply
  /-- A transaction whose CSN fell before the part entered reset (R168). -/
  | cut
  deriving DecidableEq, Repr

/-- A transaction in progress with the reply it shifts, decided when CSN fell (R161). -/
structure Transaction where
  kind  : TransactionKind
  reply : Reply
  deriving DecidableEq, Repr

/-- What a port controller has handed on to the core, in order (R107). -/
inductive HandedOn where
  | request (r : Request)
  | lapse
  deriving DecidableEq, Repr

/-- A port controller (R105, R117, R124, R161, R162, R167, R172). `miso` is the model's record of the bytes the last
ended transaction shifted out (log entry 15). A lease counter of `none` is stopped. -/
structure PortCtl where
  reply       : Option Reply
  lastReply   : Option Reply
  processing  : Option Request
  handedOn    : List HandedOn
  lease       : Option Nat
  notices     : List Notice
  missed      : Bool
  transaction : Option Transaction
  miso        : List Byte
  deriving DecidableEq, Repr

/-- A port controller after a cold start, with the transaction in progress and the record of MISO given (R172). -/
def PortCtl.fresh (transaction : Option Transaction) (miso : List Byte) : PortCtl :=
  { reply := none, lastReply := none, processing := none, handedOn := [], lease := none, notices := [],
    missed := false, transaction := transaction, miso := miso }

/-! ## The sag monitor -/

/-- A line state (R81). -/
inductive LineState where
  | clear
  | qualifying
  | asserted
  | restoring
  deriving DecidableEq, Repr

/-- A line machine (R81). `sampled` says whether the line has been sampled since the start, since its first sample is
handled apart (R95, R96; log entry 19); a timer of `none` is stopped. -/
structure SagLine where
  state   : LineState
  seen    : Level
  sampled : Bool
  timer   : Option Nat
  deriving DecidableEq, Repr

/-- A line between a start and its first sample (R85, R95): CLEAR, in which the seen level is deasserted (R83, log entry
19). -/
def SagLine.initial : SagLine := { state := .clear, seen := .low, sampled := false, timer := none }

/-- An event the sag monitor has delivered to the core (R85). -/
inductive SagEvent where
  | derate (group : SagGroup)
  | restore (group : SagGroup)
  deriving DecidableEq, Repr

/-- A step that the last tick made due and that has not yet come about (log entry 6). -/
inductive Due where
  | lease (port : Port)
  | deadline (ticket : Nat)
  | lineAsserted (line : SagGroup)
  | lineDeasserted (line : SagGroup)
  | qualify (line : SagGroup)
  | restore (line : SagGroup)
  | audit
  deriving DecidableEq, Repr

/-! ## The profile store -/

/-- The kept state of an image slot (R144). -/
inductive SlotState where
  | blank
  | sealed
  | damaged
  deriving DecidableEq, Repr

/-- An image slot: its contents and its kept state (R144, R145). -/
structure ImageSlot where
  contents : Memory
  state    : SlotState
  deriving DecidableEq, Repr

/-- The seal in progress: the slot being programmed and the copy of the staging buffer it works from (R157). -/
structure Seal where
  slot  : SlotNo
  image : Memory
  deriving DecidableEq, Repr

/-! ## The part as a whole -/

/-- Where the part stands between power, reset and running (R129, R130, R168). -/
inductive Phase where
  /-- without power -/
  | off
  /-- powered, RSTN low, the cold start not yet begun -/
  | coldWaiting
  | coldStarting
  /-- a warm reset is asked for and the core has not yet taken it -/
  | resetTaking
  /-- the warm reset is taken and RSTN is low -/
  | inReset
  | warmStarting
  | running
  deriving DecidableEq, Repr

/-- The state of the part. -/
structure State where
  -- the steps waiting, first in, first out
  pending       : List Instr
  -- the part as a whole
  phase         : Phase
  rstn          : Level
  -- the allocation core
  pools         : Vector Pool 8
  grants        : Vector GrantSlot 64
  ageList       : List GrantNo
  waits         : Vector WaitSlot 32
  marks         : Vector Bool 8
  tokens        : Vector Token 16
  watches       : Vector Word 4
  sessions      : Vector Session 4
  window        : AuditWindow
  restartCount  : Nat
  startKind     : StartKind
  signature     : Signature
  profile       : Profile
  lastTaken     : Port
  answering     : Option Answer
  -- work between the blocks
  transit       : List (Port × Notice)
  expiryEvents  : List Nat
  sagEvents     : List SagEvent
  auditEndMade  : Bool
  due           : List Due
  -- the port controllers
  ports         : Vector PortCtl 4
  -- the sag monitor
  lineA         : SagLine
  lineB         : SagLine
  -- the profile store
  slots         : Vector ImageSlot 4
  staging       : Memory
  sealing       : Option Seal
  commissioning : Bool
  deriving DecidableEq, Repr

/-- The part right after a cold start with PROG low that found four BLANK slots: UNCONFIGURED, every table at its
cold-start value (R20, R37, R64, R79, R95, R115, R127, R133, R137, R150, R151, R155, R172). That the slots are BLANK,
PROG low and the start completed is the model's choice (log entry 1). -/
def State.reset : State :=
  { pending := []
    phase := .running
    rstn := .high
    pools := Vector.replicate 8 (Pool.ofProfile PoolProfile.undefined)
    grants := Vector.replicate 64 { generation := 1, grant := none }
    ageList := []
    waits := Vector.replicate 32 { generation := 1, record := none }
    marks := Vector.replicate 8 false
    tokens := Vector.replicate 16 .free
    watches := Vector.replicate 4 0
    sessions := Vector.replicate 4 Session.initial
    window := AuditWindow.closed
    restartCount := 0
    startKind := .cold
    signature := .matching
    profile := Profile.unconfigured
    lastTaken := 3
    answering := none
    transit := []
    expiryEvents := []
    sagEvents := []
    auditEndMade := false
    due := []
    ports := Vector.replicate 4 (PortCtl.fresh none [])
    lineA := SagLine.initial
    lineB := SagLine.initial
    slots := Vector.replicate 4 { contents := [], state := .blank }
    staging := []
    sealing := none
    commissioning := false }

end Sys2Proof.Machine
end

