-- ==== Sys2Proof/Machine/Memory.lean ====
section
/-! DEFINITION. Named operations over an image slot's bytes and over the staging buffer (R144, R155). -/

namespace Sys2Proof.Machine.Memory

/-- The canonical form, from address `lo` on: addresses strictly rising, below 256, no entry equal to what an unlisted
address reads as. -/
def wfFrom (lo : Nat) : Memory → Bool
  | [] => true
  | (a, b) :: rest => lo ≤ a && a < 256 && b != Config.unprogrammed && wfFrom (a + 1) rest

/-- The canonical form of a memory. -/
def wf (m : Memory) : Bool := wfFrom 0 m

/-- The byte at an address; an unlisted address reads 0xFF (R144, R155). -/
def read : Memory → Nat → Byte
  | [], _ => Config.unprogrammed
  | (a, b) :: rest, i => if a = i then b else read rest i

/-- Put a byte at an address, keeping the canonical form: a byte of 0xFF is not listed. -/
def write : Memory → Nat → Byte → Memory
  | [], i, v => if v = Config.unprogrammed then [] else [(i, v)]
  | (a, b) :: rest, i, v =>
    if i < a then (if v = Config.unprogrammed then (a, b) :: rest else (i, v) :: (a, b) :: rest)
    else if i = a then (if v = Config.unprogrammed then rest else (i, v) :: rest)
    else (a, b) :: write rest i v

/-- Write the bytes of a list from an address on. -/
def writeAll (m : Memory) (i : Nat) : List Byte → Memory
  | [] => m
  | v :: vs => writeAll (write m i v) (i + 1) vs

/-- Program a byte: bits turn from 1 to 0 and none from 0 to 1 (R144). -/
def program (m : Memory) (i : Nat) (v : Byte) : Memory := write m i (read m i &&& v)

/-- Turn bits of the bytes at a list of addresses to 0: those that the value beside the address has 0 (R144). -/
def programAll (m : Memory) (turned : List Host.Cell) : Memory := turned.foldl (fun m c => m.program c.1 c.2) m

/-- The `n` bytes from an address on. -/
def readRange (m : Memory) (i n : Nat) : List Byte := (List.range n).map fun k => read m (i + k)

/-- Whether every one of the 256 bytes reads 0xFF (R144). -/
def isBlank (m : Memory) : Bool := (List.range 256).all fun i => read m i == Config.unprogrammed

/-- Bytes 0 to 252 of a memory, the others 0xFF: the copy a seal works from (R157). -/
def imagePart (m : Memory) : Memory := m.filter fun c => c.1 < 253

end Sys2Proof.Machine.Memory
end

