-- ==== Sys2Proof/Machine/Ops.lean ====
section
/-! DEFINITION. Named operations over the tables of the part: reading and changing one entry, handing over a notice,
placing a reply, and the figures of pools, grants and wait records that the rules of chapters 1 to 3 define. -/

namespace Sys2Proof.Machine

/-! ## Tables -/

/-- The table whose entry `i` is `f i`. -/
def tabulate {α : Type} (n : Nat) (f : Fin n → α) : Vector α n :=
  ⟨⟨(List.finRange n).map f⟩, by simp⟩

/-- The mask that names the tokens `f` holds of; token n is bit n (R67). -/
def maskOf (f : TokenNo → Bool) : Word :=
  (List.finRange 16).foldl (fun m i => if f i then m ||| BitVec.twoPow 16 i else m) 0

/-- Whether a mask names a token (R67). -/
def names (mask : Word) (t : TokenNo) : Bool := mask.getLsbD t

/-- The first check that fails decides the answer (R175): each check is whether it passes, and its status. -/
def firstFailure : List (Bool × Status) → Option Status
  | [] => none
  | (passes, status) :: rest => if passes then firstFailure rest else some status

/-- The generation after `g`, wrapping from `last` to 1 (R23, R40). -/
def nextGeneration (last g : Nat) : Nat := if g = last then 1 else g + 1

namespace State

def port (s : State) (p : Port) : PortCtl := s.ports[p]
def pool (s : State) (n : PoolNo) : Pool := s.pools[n]
def session (s : State) (p : Port) : Session := s.sessions[p]
def watch (s : State) (p : Port) : Word := s.watches[p]
def token (s : State) (t : TokenNo) : Token := s.tokens[t]
def mark (s : State) (n : PoolNo) : Bool := s.marks[n]
def grantSlot (s : State) (i : GrantNo) : GrantSlot := s.grants[i]
def waitSlot (s : State) (i : WaitNo) : WaitSlot := s.waits[i]
def imageSlot (s : State) (i : SlotNo) : ImageSlot := s.slots[i]
def portProfile (s : State) (p : Port) : PortProfile := s.profile.ports[p]

def modPort (s : State) (p : Port) (f : PortCtl → PortCtl) : State :=
  { s with ports := s.ports.set p (f (s.port p)) }
def modPool (s : State) (n : PoolNo) (f : Pool → Pool) : State :=
  { s with pools := s.pools.set n (f (s.pool n)) }
def setSession (s : State) (p : Port) (x : Session) : State := { s with sessions := s.sessions.set p x }
def setWatch (s : State) (p : Port) (m : Word) : State := { s with watches := s.watches.set p m }
def setMark (s : State) (n : PoolNo) (b : Bool) : State := { s with marks := s.marks.set n b }
def setGrantSlot (s : State) (i : GrantNo) (x : GrantSlot) : State := { s with grants := s.grants.set i x }
def setWaitSlot (s : State) (i : WaitNo) (x : WaitSlot) : State := { s with waits := s.waits.set i x }
def setImageSlot (s : State) (i : SlotNo) (x : ImageSlot) : State := { s with slots := s.slots.set i x }

/-- Give every token of a mask the state `t`. -/
def setTokens (s : State) (mask : Word) (t : Token) : State :=
  { s with tokens := tabulate 16 fun i => if names mask i then t else s.token i }

/-- The line machine of a sag group (R81). -/
def line (s : State) : SagGroup → SagLine
  | .a => s.lineA
  | .b => s.lineB

def setLine (s : State) : SagGroup → SagLine → State
  | .a, x => { s with lineA := x }
  | .b, x => { s with lineB := x }

/-- The qualify and restore times of a line (R81, R147). -/
def sagTimes (s : State) : SagGroup → SagTimes
  | .a => s.profile.sagA
  | .b => s.profile.sagB

/-- Whether the part runs UNCONFIGURED, or with the UNCONFIGURED copy in commissioning state: a valid image's version
is never 0 (R149, R151, R153, log entry 16). -/
def unconfigured (s : State) : Bool := s.profile.version = 0

/-! ## Notices -/

/-- The core hands a notice over to a port controller (R119). -/
def post (s : State) (p : Port) (n : Notice) : State := { s with transit := s.transit ++ [(p, n)] }

end State

/-- A port controller stores a notice handed to it, or discards it and sets MISSED when 8 are held (R120). -/
def PortCtl.store (c : PortCtl) (n : Notice) : PortCtl :=
  if c.notices.length < Config.noticeLimit then { c with notices := c.notices ++ [n] } else { c with missed := true }

namespace State

/-- The notices handed over reach their port controllers, in the order they were posted (R119, R120). -/
def deliverPosts (s : State) : State :=
  s.transit.foldl (fun s pn => s.modPort pn.1 (·.store pn.2)) { s with transit := [] }

/-! ## The core's answer -/

/-- The core makes its answer to the request of `p` (R167). -/
def replyWith (s : State) (p : Port) (status : Status) (payload : List Byte) : State :=
  { s with answering := some { port := p, status := status, payload := payload } }

/-! ## Pool figures (chapter 1) -/

end State

namespace Pool

/-- The effective capacity (R4). -/
def effective (q : Pool) : Nat :=
  match q.derateState with
  | .normal => q.nominal
  | .derated => q.derated

/-- Whether the charged sum exceeds the effective capacity (R6). -/
def overdrawn (q : Pool) : Bool := q.effective < q.charged

/-- The room: the effective capacity less the charged sum, or 0 when overdrawn (R6). -/
def room (q : Pool) : Nat := if q.overdrawn then 0 else q.effective - q.charged

/-- The excess: the charged sum less the effective capacity, or 0 when not overdrawn (R6). -/
def excess (q : Pool) : Nat := q.charged - q.effective

end Pool

namespace State

/-- The root of a pool's family: its parent, or itself (R3). -/
def rootOf (s : State) (n : PoolNo) : PoolNo := (s.pool n).parent.getD n

/-- The available room of a request in a pool (R7). -/
def available (s : State) (n : PoolNo) : Nat :=
  match (s.pool n).parent with
  | none => (s.pool n).room
  | some r => min (s.pool n).room (s.pool r).room

/-- The grant a slot holds, if any (R22). -/
def grant? (s : State) (i : GrantNo) : Option Grant := (s.grantSlot i).grant

/-- The record a wait slot holds, if any (R39). -/
def record? (s : State) (i : WaitNo) : Option WaitRecord := (s.waitSlot i).record

/-- The live grants, in slot order (R22). -/
def liveGrants (s : State) : List Grant := (List.finRange 64).filterMap s.grant?

/-- The live wait records, in slot order (R39). -/
def liveRecords (s : State) : List WaitRecord := (List.finRange 32).filterMap s.record?

/-- A port's held units in a pool: the units of its live grants there (R8). -/
def held (s : State) (p : Port) (n : PoolNo) : Nat :=
  ((s.liveGrants.filter fun g => g.port == p && g.pool == n).map Grant.units).sum

/-- The profile's quota of a port in a pool (R8). -/
def quota (s : State) (p : Port) (n : PoolNo) : Nat := (s.portProfile p).quotas[n]

/-- The quota room (R8). -/
def quotaRoom (s : State) (p : Port) (n : PoolNo) : Nat := s.quota p n - s.held p n

/-- The grantable amount of a request with maximum `m` (R9). -/
def grantable (s : State) (p : Port) (n : PoolNo) (m : Nat) : Nat :=
  min m (min (s.available n) (s.quotaRoom p n))

/-- The ahead rule: in an ORDERED pool no record of the pool's queue has a priority equal to or higher than the
port's; a FIT pool has no ahead rule (R10). -/
def aheadPasses (s : State) (p : Port) (n : PoolNo) : Bool :=
  match (s.pool n).policy with
  | .fit => true
  | .ordered =>
    (s.pool n).queue.all fun i =>
      match s.record? i with
      | some r => (s.portProfile p).priority < r.priority
      | none => true

/-- The nominal-fit test of a floor in a pool (R12). -/
def nominalFit (s : State) (n : PoolNo) (floor : Nat) : Bool :=
  floor ≤ (s.pool n).nominal &&
    match (s.pool n).parent with
    | none => true
    | some r => floor ≤ (s.pool r).nominal

/-! ## Charging and the grant table (chapter 2) -/

/-- Raise the charged sum of a pool, and of its root when it is a branch (R5, R27, R30). -/
def addCharge (s : State) (n : PoolNo) (k : Nat) : State :=
  let t := s.modPool n fun q => { q with charged := q.charged + k }
  match (s.pool n).parent with
  | none => t
  | some r => t.modPool r fun q => { q with charged := q.charged + k }

/-- Lower the charged sum of a pool, and of its root when it is a branch (R5, R31, R32). -/
def subCharge (s : State) (n : PoolNo) (k : Nat) : State :=
  let t := s.modPool n fun q => { q with charged := q.charged - k }
  match (s.pool n).parent with
  | none => t
  | some r => t.modPool r fun q => { q with charged := q.charged - k }

/-- The lowest-numbered FREE grant slot (R27). -/
def freeGrantSlot (s : State) : Option GrantNo := (List.finRange 64).find? fun i => (s.grant? i).isNone

/-- The handle of a slot at its generation (R23). -/
def handleOf (s : State) (i : GrantNo) : Nat := (s.grantSlot i).generation * 64 + i

/-- Put a grant in a slot, keeping its generation. -/
def putGrant (s : State) (i : GrantNo) (g : Grant) : State :=
  s.setGrantSlot i { s.grantSlot i with grant := some g }

/-- Create a grant in a FREE slot: it is charged and joins the age list at its newest end (R27). -/
def createGrant (s : State) (i : GrantNo) (g : Grant) : State :=
  let t := (s.putGrant i g).addCharge g.pool g.units
  { t with ageList := t.ageList ++ [i] }

/-- Grow a live grant to `v` units (R30). -/
def growGrant (s : State) (i : GrantNo) (g : Grant) (v : Nat) : State :=
  (s.putGrant i { g with units := v }).addCharge g.pool (v - g.units)

/-- Shrink a live grant to `v` units; its floor follows the units down (R31). -/
def shrinkGrant (s : State) (i : GrantNo) (g : Grant) (v : Nat) : State :=
  (s.putGrant i { g with units := v, floor := min g.floor v }).subCharge g.pool (g.units - v)

/-- Free the grant of a slot whole: the charged sums fall, it leaves the age list, and its slot's generation advances
(R32). A FREE slot is left as it is. -/
def freeGrant (s : State) (i : GrantNo) : State :=
  match s.grant? i with
  | none => s
  | some g =>
    let gen := nextGeneration Config.lastGrantGeneration (s.grantSlot i).generation
    let t := (s.setGrantSlot i { generation := gen, grant := none }).subCharge g.pool g.units
    { t with ageList := t.ageList.filter (· ≠ i) }

/-- Free the grants of a list of slots in its order (R34). -/
def freeGrants (s : State) (l : List GrantNo) : State := l.foldl freeGrant s

/-- A port's live grants, oldest first by the age list (R26, R34). -/
def grantsOf (s : State) (p : Port) : List GrantNo :=
  s.ageList.filter fun i => match s.grant? i with | some g => g.port == p | none => false

/-- The roots of the families of the grants of a list of slots (R34). -/
def familiesOfGrants (s : State) (l : List GrantNo) : List PoolNo :=
  l.filterMap fun i => (s.grant? i).map fun g => s.rootOf g.pool

/-- The families whose slot-wait mark is set (R28). -/
def markedFamilies (s : State) : List PoolNo := (List.finRange 8).filter s.mark

/-! ## The wait table (chapter 3) -/

/-- The lowest-numbered FREE wait slot (R44). -/
def freeWaitSlot (s : State) : Option WaitNo := (List.finRange 32).find? fun i => (s.record? i).isNone

/-- The ticket of a wait slot at its generation (R40). -/
def ticketOf (s : State) (i : WaitNo) : Nat := (s.waitSlot i).generation * 32 + i

/-- How many live records a port owns (R42). -/
def recordCount (s : State) (p : Port) : Nat := (s.liveRecords.filter fun r => r.port == p).length

/-- A queue with a record of priority `k` placed after the last record of equal or higher priority (R43). -/
def placeInQueue (s : State) (q : List WaitNo) (i : WaitNo) (k : Fin 4) : List WaitNo :=
  let ahead := fun j : WaitNo => match s.record? j with | some r => decide (r.priority ≤ k) | none => true
  q.takeWhile ahead ++ i :: q.dropWhile ahead

/-- Queue a record in a FREE wait slot (R44). -/
def queueRecord (s : State) (i : WaitNo) (r : WaitRecord) : State :=
  (s.setWaitSlot i { s.waitSlot i with record := some r }).modPool r.pool fun q =>
    { q with queue := s.placeInQueue q.queue i r.priority }

/-- Remove a record: it leaves its queue and its slot's generation advances (R46). A FREE slot is left as it is. -/
def removeRecord (s : State) (i : WaitNo) : State :=
  match s.record? i with
  | none => s
  | some r =>
    let gen := nextGeneration Config.lastWaitGeneration (s.waitSlot i).generation
    (s.setWaitSlot i { generation := gen, record := none }).modPool r.pool fun q =>
      { q with queue := q.queue.filter (· ≠ i) }

/-- A port's wait records in ascending slot order (R46). -/
def recordsOf (s : State) (p : Port) : List WaitNo :=
  (List.finRange 32).filter fun i => match s.record? i with | some r => r.port == p | none => false

/-- The roots of the families of the records of a list of slots (R108). -/
def familiesOfRecords (s : State) (l : List WaitNo) : List PoolNo :=
  l.filterMap fun i => (s.record? i).map fun r => s.rootOf r.pool

/-- Whether a record stands at the head of an ORDERED queue (R45). -/
def isOrderedHead (s : State) (i : WaitNo) : Bool :=
  match s.record? i with
  | none => false
  | some r => (s.pool r.pool).policy == .ordered && (s.pool r.pool).queue.head? == some i

end State

end Sys2Proof.Machine
end

