-- ==== Sys2Proof/Machine/Passes.lean ====
section
/-! DEFINITION. The service pass (R47 to R56) and shedding (R87 to R91). -/

namespace Sys2Proof.Machine.State

/-! ## The service pass -/

/-- What a service pass finds of a record it reaches, its three conditions tested in the order of R50. -/
inductive Verdict where
  /-- the floor exceeds the port's quota room (R53) -/
  | overQuota
  /-- the grant table has no FREE slot (R54) -/
  | noSlot
  /-- grantable, in this slot with these units -/
  | grant (slot : GrantNo) (units : Nat)
  /-- the grantable amount is below the floor -/
  | tooLittle
  deriving DecidableEq, Repr

/-- Weigh a record (R50). -/
def weigh (s : State) (r : WaitRecord) : Verdict :=
  if s.quotaRoom r.port r.pool < r.floor then .overQuota
  else
    match s.freeGrantSlot with
    | none => .noSlot
    | some i =>
      let units := s.grantable r.port r.pool r.max
      if r.floor ≤ units then .grant i units else .tooLittle

/-- Remove a record for quota, with WAIT_ENDED cause QUOTA (R53). -/
def refuseForQuota (s : State) (w : WaitNo) (r : WaitRecord) : State :=
  (s.removeRecord w).post r.port (.waitEnded (s.ticketOf w) .quota r.tag)

/-- Grant a record: the grant is created, the record removed, GRANTED posted (R55). -/
def grantRecord (s : State) (w : WaitNo) (r : WaitRecord) (i : GrantNo) (units : Nat) : State :=
  let t := s.createGrant i { state := .active, port := r.port, pool := r.pool, units := units, floor := r.floor }
  (t.removeRecord w).post r.port (.granted (s.ticketOf w) (s.handleOf i) units r.tag)

/-- Serve an ORDERED queue from its head (R51); `fam` is the family's root, whose mark a stop for want of a slot sets. -/
def serveOrdered (fam : PoolNo) (s : State) : List WaitNo → State
  | [] => s
  | w :: rest =>
    match s.record? w with
    | none => serveOrdered fam s rest
    | some r =>
      match s.weigh r with
      | .overQuota => serveOrdered fam (s.refuseForQuota w r) rest
      | .noSlot => s.setMark fam true
      | .grant i units => serveOrdered fam (s.grantRecord w r i units) rest
      | .tooLittle => s

/-- Walk a FIT queue from head to tail (R52). -/
def serveFit (fam : PoolNo) (s : State) : List WaitNo → State
  | [] => s
  | w :: rest =>
    match s.record? w with
    | none => serveFit fam s rest
    | some r =>
      match s.weigh r with
      | .overQuota => serveFit fam (s.refuseForQuota w r) rest
      | .noSlot => s.setMark fam true
      | .grant i units => serveFit fam (s.grantRecord w r i units) rest
      | .tooLittle => serveFit fam s rest

/-- Serve one pool by its policy (R48). -/
def servePool (fam : PoolNo) (s : State) (n : PoolNo) : State :=
  match (s.pool n).policy with
  | .ordered => serveOrdered fam s (s.pool n).queue
  | .fit => serveFit fam s (s.pool n).queue

/-- The pools of a family in the order a pass serves them: the root, then its branches in ascending number (R48). -/
def familyPools (s : State) (root : PoolNo) : List PoolNo :=
  root :: (List.finRange 8).filter fun n => (s.pool n).defined && (s.pool n).parent == some root

/-- Serve a family: its mark is cleared, then each of its pools is served once (R48). -/
def serveFamily (s : State) (root : PoolNo) : State :=
  (s.familyPools root).foldl (servePool root) (s.setMark root false)

/-- A service pass over the families of the given roots, in ascending order, each once (R47, R48). -/
def servicePass (s : State) (roots : List PoolNo) : State :=
  ((List.finRange 8).filter (roots.contains ·)).foldl serveFamily s

/-! ## Shedding -/

/-- Whether a grant is charged to a pool: its own pool, or the root of its pool (R5, R87). -/
def chargedTo (s : State) (n : PoolNo) (g : Grant) : Bool :=
  g.pool == n || (s.pool g.pool).parent == some n

/-- The candidates for shedding a pool, ranked: lowest priority first, within one priority newest first (R87, R88). -/
def shedRanking (s : State) (n : PoolNo) : List GrantNo :=
  let candidates := s.ageList.reverse.filter fun i =>
    match s.grant? i with | some g => s.chargedTo n g | none => false
  ([3, 2, 1, 0] : List (Fin 4)).flatMap fun k =>
    candidates.filter fun i => match s.grant? i with | some g => (s.portProfile g.port).priority == k | none => false

/-- The trim phase on ranked candidates with an excess remaining (R89): the state and the excess left. -/
def trimPhase (s : State) (excess : Nat) : List GrantNo → State × Nat
  | [] => (s, excess)
  | i :: rest =>
    if excess = 0 then (s, 0)
    else
      match s.grant? i with
      | none => trimPhase s excess rest
      | some g =>
        let take := min (g.units - g.floor) excess
        if take = 0 then trimPhase s excess rest
        else
          let t := s.shrinkGrant i g (g.units - take)
          trimPhase (t.post g.port (.trimmed (s.handleOf i) (g.units - take))) (excess - take) rest

/-- The revoke phase on ranked candidates with an excess remaining (R90). -/
def revokePhase (s : State) (excess : Nat) : List GrantNo → State
  | [] => s
  | i :: rest =>
    if excess = 0 then s
    else
      match s.grant? i with
      | none => revokePhase s excess rest
      | some g =>
        revokePhase ((s.freeGrant i).post g.port (.revoked (s.handleOf i) .shed)) (excess - g.units) rest

/-- Shed a pool: rank once, trim, then revoke what excess remains (R87 to R91). A pool that is not overdrawn is left as
it is. -/
def shed (s : State) (n : PoolNo) : State :=
  let ranking := s.shedRanking n
  let (t, excess) := s.trimPhase (s.pool n).excess ranking
  t.revokePhase excess ranking

end Sys2Proof.Machine.State
end

