-- ==== Sys2Proof/Machine/Holdings.lean ====
section
/-! DEFINITION. Freeing tokens, the early close of the audit window, and what a lapse and a detachment free (R73, R113,
R139, R108, R111). -/

namespace Sys2Proof.Machine.State

/-! ## Tokens -/

/-- The tokens HELD by a port (R66). -/
def heldMask (s : State) (p : Port) : Word := maskOf fun t => s.token t == .held p

/-- The tokens AUDIT by a port (R66). -/
def auditMask (s : State) (p : Port) : Word := maskOf fun t => s.token t == .audit p

/-- The tokens that are FREE (R66). -/
def freeMask (s : State) : Word := maskOf fun t => s.token t == .free

/-- The tokens AUDIT by any port. -/
def allAuditMask (s : State) : Word :=
  maskOf fun t => match s.token t with | .audit _ => true | _ => false

/-- One watching port is told of the freed tokens it watched, and those watches are used up (R73). -/
def tellWatcher (freed : Word) (s : State) (p : Port) : State :=
  if s.watch p &&& freed = 0 then s
  else (s.post p (.tokenFree (s.watch p &&& freed))).setWatch p (s.watch p &&& ~~~freed)

/-- Free the tokens of a mask as one freeing (R73). -/
def freeTokens (s : State) (mask : Word) : State :=
  (List.finRange 4).foldl (tellWatcher mask) (s.setTokens mask .free)

/-! ## Audit holdings -/

/-- Whether a port holds an AUDIT grant. -/
def hasAuditGrant (s : State) (p : Port) : Bool :=
  s.liveGrants.any fun g => g.port == p && g.state == .audit

/-- Whether a port holds an AUDIT grant or token. -/
def holdsAudit (s : State) (p : Port) : Bool := s.hasAuditGrant p || s.auditMask p != 0

/-- Whether any AUDIT grant or token exists (R137). -/
def anyAudit (s : State) : Bool := (List.finRange 4).any s.holdsAudit

/-- The number of a port's AUDIT grants (R104). -/
def auditGrantCount (s : State) (p : Port) : Nat :=
  (s.liveGrants.filter fun g => g.port == p && g.state == .audit).length

/-- A RECOVERING port that holds no AUDIT holding becomes DETACHED; its lease period stays 0 (R113). -/
def detachIfBare (s : State) (p : Port) : State :=
  if (s.session p).state = .recovering ∧ s.holdsAudit p = false then
    s.setSession p { s.session p with state := .detached }
  else s

/-- R113 for every port. -/
def detachBare (s : State) : State := (List.finRange 4).foldl detachIfBare s

/-- The window closes early when no AUDIT holding is left (R139). -/
def closeIfDone (s : State) : State :=
  if s.window.isOpen && !s.anyAudit then { s with window := .closed } else s

/-! ## Lapse and detachment -/

/-- Steps 1 to 4 of R108: the watch set, the wait records, the grants and the tokens of a port are freed. -/
def releaseHoldings (s : State) (p : Port) : State :=
  let t := s.setWatch p 0
  let t := (t.recordsOf p).foldl removeRecord t
  let t := t.freeGrants (t.grantsOf p)
  t.freeTokens (t.heldMask p ||| t.auditMask p)

/-- The families step 7 of R108 covers, as the port's holdings stand before they are freed: those of its records and of
its grants and, when it has a grant, every marked one. -/
def familiesOfHoldings (s : State) (p : Port) : List PoolNo :=
  s.familiesOfRecords (s.recordsOf p) ++ s.familiesOfGrants (s.grantsOf p) ++
    if (s.grantsOf p).isEmpty then [] else s.markedFamilies

/-- A lapse of a port (R108). -/
def lapseSession (s : State) (p : Port) (cause : LapseCause) : State :=
  let t := s.releaseHoldings p
  let t := t.setSession p { t.session p with state := .lapsed, lapseCause := some cause }
  let t := t.modPort p fun c => { c with lease := none }
  let t := (t.post p (.lapsed cause)).closeIfDone
  t.servicePass (s.familiesOfHoldings p)

/-- A detachment of a port (R111). -/
def detachSession (s : State) (p : Port) : State :=
  let t := s.releaseHoldings p
  let t := t.setSession p Session.initial
  let t := (t.modPort p fun c => { c with lease := none, notices := [], missed := false }).closeIfDone
  t.servicePass (s.familiesOfHoldings p)

end Sys2Proof.Machine.State
end

