-- ==== Sys2Proof/Machine/Flags.lean ====
section
/-! DEFINITION. The flags byte, ATTN, the codes of status, kind and cause bytes, and the reply layouts (R118, R121, R164,
R165, R173, R174). -/

namespace Sys2Proof.Machine

/-! ## Codes -/

/-- The status codes (R173). -/
def Status.code : Status → Byte
  | .ok => 0x00
  | .queued => 0x01
  | .partly => 0x02
  | .frameError => 0x10
  | .unknown => 0x11
  | .notReady => 0x12
  | .pending => 0x13
  | .noReply => 0x14
  | .notAttached => 0x20
  | .lapsed => 0x21
  | .noRight => 0x22
  | .noProfile => 0x23
  | .locked => 0x24
  | .commissioning => 0x25
  | .badPool => 0x30
  | .badValue => 0x31
  | .badHandle => 0x32
  | .badTicket => 0x33
  | .badToken => 0x34
  | .noRoom => 0x40
  | .overQuota => 0x41
  | .tableFull => 0x42
  | .queueFull => 0x43
  | .conflict => 0x44
  | .inAudit => 0x45
  | .notAudit => 0x46
  | .noSlot => 0x50
  | .stagingInvalid => 0x51
  | .sealFailed => 0x52

/-- The session state in bits 1:0 of the flags byte (R165). -/
def SessionState.code : SessionState → Nat
  | .detached => 0
  | .attached => 1
  | .lapsed => 2
  | .recovering => 3

def StartKind.code : StartKind → Byte
  | .cold => 0x00
  | .warm => 0x01
  | .warmLost => 0x02

def GrantState.code : GrantState → Byte
  | .active => 0x01
  | .audit => 0x02

def Policy.code : Policy → Byte
  | .ordered => 0x00
  | .fit => 0x01

def DerateState.code : DerateState → Byte
  | .normal => 0x00
  | .derated => 0x01

def SlotState.code : SlotState → Byte
  | .blank => 0x00
  | .sealed => 0x01
  | .damaged => 0x02

/-- A pool's sag group as QPL gives it (R174). -/
def groupCode : Option SagGroup → Byte
  | none => 0x00
  | some .a => 0x01
  | some .b => 0x02

/-- A pool's parent as QPL gives it (R174). -/
def parentCode : Option PoolNo → Byte
  | none => 0xFF
  | some n => BitVec.ofNat 8 n

def WaitEnd.code : WaitEnd → Byte
  | .expired => 0x01
  | .quota => 0x02

def RevokeCause.code : RevokeCause → Byte
  | .shed => 0x01
  | .supervisor => 0x02
  | .auditEnd => 0x03

def LapseCause.code : LapseCause → Byte
  | .lease => 0x01
  | .evicted => 0x02

/-! ## Payloads -/

/-- A one-byte field. -/
def byteField (n : Nat) : List Byte := [BitVec.ofNat 8 n]

/-- A two-byte field, high byte first (R163). -/
def wordField (n : Nat) : List Byte := [BitVec.ofNat 8 (n / 256), BitVec.ofNat 8 n]

/-- A mask field, high byte first. -/
def maskField (m : Word) : List Byte := wordField m.toNat

/-- The fields of an NTF reply: kind, cause, frame tag, ticket, handle, units, mask (R173). -/
def ntfFields (kind cause tag : Byte) (ticket handle units mask : Nat) : List Byte :=
  [kind, cause, tag] ++ wordField ticket ++ wordField handle ++ wordField units ++ wordField mask

/-- The NTF payload of a notice, or of kind NONE; a field the kind does not carry is 0 (R118, R169). -/
def ntfPayload : Option Notice → List Byte
  | none => ntfFields 0x00 0 0 0 0 0 0
  | some (.granted ticket handle units tag) => ntfFields 0x01 0 tag ticket handle units 0
  | some (.waitEnded ticket cause tag) => ntfFields 0x02 cause.code tag ticket 0 0 0
  | some (.trimmed handle units) => ntfFields 0x03 0 0 0 handle units 0
  | some (.revoked handle cause) => ntfFields 0x04 cause.code 0 0 handle 0 0
  | some (.tokenFree mask) => ntfFields 0x05 0 0 0 0 0 mask.toNat
  | some (.lapsed cause) => ntfFields 0x06 cause.code 0 0 0 0 0

/-- The length of a command's reply payload (R173). -/
def payloadLength : Command → Nat
  | .att _ => 7
  | .det => 0
  | .rsv _ _ _ _ => 6
  | .adj _ _ => 4
  | .rel _ => 0
  | .can _ => 0
  | .cnf _ => 4
  | .qgr _ => 7
  | .qpl _ => 19
  | .qpt => 13
  | .qdv => 26
  | .clm _ _ _ => 4
  | .drp _ => 2
  | .cnt _ => 2
  | .uwt _ => 2
  | .scp _ _ _ => 0
  | .rvk _ => 0
  | .evc _ => 0
  | .rsr => 0
  | .srd _ _ => 17
  | .stg _ _ => 0
  | .chk => 2
  | .sel => 3

/-- A command's reply payload with every field 0, as a status that reports no field carries it (R164). -/
def zeroPayload (c : Command) : List Byte := List.replicate (payloadLength c) 0

/-- RSV: handle, units, ticket (R173). -/
def rsvPayload (handle units ticket : Nat) : List Byte := wordField handle ++ wordField units ++ wordField ticket

/-- ADJ and CNF: units, floor (R173). -/
def grantPayload (g : Grant) : List Byte := wordField g.units ++ wordField g.floor

namespace State

/-! ## Flags and ATTN -/

/-- The flags byte of a reply placed now on a port: session state, notice count, MISSED, audit window (R165). -/
def flags (s : State) (p : Port) : Byte :=
  BitVec.ofNat 8 ((s.session p).state.code + 4 * (s.port p).notices.length +
    (if (s.port p).missed then 64 else 0) + (if s.window.isOpen then 128 else 0))

/-- Whether the core is at work: the part runs, or a reset asked for waits for the item the core is on (R129). -/
def coreActive (s : State) : Bool := s.phase == .running || s.phase == .resetTaking

/-- ATTN is high while the port's notice queue holds a notice; it is low from the moment the core takes a warm reset, while
the part is in reset and starting (R121), and without power (log entry 17). -/
def attn (s : State) (p : Port) : Level :=
  if s.coreActive ∧ (s.port p).notices ≠ [] then .high else .low

/-- Whether no image is loaded because a load is to come or going on (R150, R152): from the moment power is applied to
the end of the cold start, and in a warm start whose signature is bad. Without power nothing is loaded either. -/
def loading (s : State) : Bool :=
  match s.phase with
  | .off => true
  | .coldWaiting => true
  | .coldStarting => true
  | .warmStarting => s.signature == .differing
  | .resetTaking => false
  | .inReset => false
  | .running => false

/-- The kHz by which CLKIN is divided into ticks: that of the loaded copy, which is 16000 while the part is UNCONFIGURED
or in commissioning state, and 16000 while no image is loaded (R151, R152, R153; log entry 16). -/
def tickDivider (s : State) : Nat := if s.loading then Config.unloadedClock else s.profile.clock

/-! ## Placing replies -/

/-- Place a reply in a port's slot; its flags byte is read now (R125, R165). -/
def placeReply (s : State) (p : Port) (status : Status) (tag : Byte) (payload : List Byte) : State :=
  s.modPort p fun c =>
    { c with reply := some { status := status, tag := tag, flags := s.flags p, payload := payload } }

/-- Place the core's answer, if it has made one: the processing ends (R167). -/
def placeAnswer (s : State) : State :=
  match s.answering with
  | none => s
  | some a =>
    let tag := match (s.port a.port).processing with | some r => r.tag | none => 0
    (({ s with answering := none } : State).modPort a.port fun c => { c with processing := none }).placeReply
      a.port a.status tag a.payload

end State

namespace Reply

/-- The bytes of a reply: status, tag echo, flags, payload and the CRC-8 over them (R164). -/
def bytes (r : Reply) : List Byte :=
  let body := [r.status.code, r.tag, r.flags] ++ r.payload
  body ++ [crc8 body]

/-- The first `n` bytes a transaction shifts on MISO: the reply's, then 0xFF (R161). -/
def shifted (r : Reply) (n : Nat) : List Byte :=
  (List.range n).map fun i => r.bytes.getD i Config.fill

end Reply

end Sys2Proof.Machine
end

