-- ==== Sys2Proof/Machine/Operands.lean ====
section
/-! DEFINITION. The operands a request names: pools, handles, tickets, masks, ports (R2, R24, R41, R67), and the checks on
the session and the rights (R100, R102, R154). -/

namespace Sys2Proof.Machine

namespace State

/-- The defined pool a request names; `none` is BAD_POOL (R2). -/
def definedPool? (s : State) (b : Byte) : Option PoolNo :=
  if h : b.toNat < 8 then
    if (s.pool ⟨b.toNat, h⟩).defined then some ⟨b.toNat, h⟩ else none
  else none

/-- The live grant a handle names; a stale handle names none (R24). -/
def resolveHandle (s : State) (handle : Nat) : Option (GrantNo × Grant) :=
  let i : GrantNo := ⟨handle % 64, Nat.mod_lt _ (by decide)⟩
  if handle / 64 ≠ 0 ∧ (s.grantSlot i).generation = handle / 64 then (s.grant? i).map fun g => (i, g) else none

/-- The live grant of the requester that a handle names (R24). -/
def ownGrant (s : State) (p : Port) (handle : Word) : Option (GrantNo × Grant) :=
  (s.resolveHandle handle.toNat).filter fun ig => ig.2.port == p

/-- The live wait record a ticket names; a stale ticket names none (R41). -/
def resolveTicket (s : State) (ticket : Nat) : Option (WaitNo × WaitRecord) :=
  let i : WaitNo := ⟨ticket % 32, Nat.mod_lt _ (by decide)⟩
  if ticket / 32 ≠ 0 ∧ (s.waitSlot i).generation = ticket / 32 then (s.record? i).map fun r => (i, r) else none

/-- The live wait record of the requester that a ticket names (R41). -/
def ownRecord (s : State) (p : Port) (ticket : Word) : Option (WaitNo × WaitRecord) :=
  (s.resolveTicket ticket.toNat).filter fun ir => ir.2.port == p

/-- Whether a mask names only tokens numbered below N (R67). -/
def maskInRange (s : State) (mask : Word) : Bool := mask.toNat < 2 ^ s.profile.tokenCount

/-- The port an operand names (R112). -/
def portOf? (b : Byte) : Option Port := if h : b.toNat < 4 then some ⟨b.toNat, h⟩ else none

end State

/-- The commands answered in every session state (R102). -/
def anySession : Command → Bool
  | .att _ => true
  | .qdv => true
  | .qpt => true
  | _ => false

/-- The commands P0 may have answered by the core in commissioning state (R154). -/
def inCommissioning : Command → Bool
  | .qdv => true
  | .srd _ _ => true
  | .stg _ _ => true
  | .chk => true
  | .sel => true
  | _ => false

namespace State

/-- The core's first check: in commissioning state the restriction of R154, otherwise the session check of R102. -/
def sessionRefusal (s : State) (p : Port) (c : Command) : Option Status :=
  if s.commissioning then
    if inCommissioning c then none else some .commissioning
  else if anySession c then none
  else
    match (s.session p).state with
    | .attached => none
    | .lapsed => some .lapsed
    | .detached => some .notAttached
    | .recovering => some .notAttached

/-- Refuse a command: every payload field is 0 (R164, R175). -/
def refuse (s : State) (p : Port) (c : Command) (status : Status) : State := s.replyWith p status (zeroPayload c)

end State

end Sys2Proof.Machine
end

