-- ==== Sys2Proof/Machine/Store.lean ====
section
/-! DEFINITION. The profile store: the image layout, validation, classification, loading, and the seal (R144 to R151,
R157, R158). -/

namespace Sys2Proof.Machine

/-! ## The image layout and validation -/

/-- A two-byte field of an image, high byte first (R146). -/
def imageWord (m : Memory) (i : Nat) : Nat := (m.read i).toNat * 256 + (m.read (i + 1)).toNat

/-- One check of R149: whether it fails, its detail code and the offset it reports. -/
structure ImageCheck where
  fails  : Bool
  code   : Byte
  offset : Nat

/-- The checks of pool `n`'s record in ascending offset (R149). -/
def poolChecks (m : Memory) (n : Nat) : List ImageCheck :=
  let at_ := 4 + 8 * n
  let isDefined := m.read at_ == 0x01
  let parent := (m.read (at_ + 1)).toNat
  let named := isDefined && parent != 255
  [ ⟨m.read at_ != 0x00 && m.read at_ != 0x01, 0x03, at_⟩,
    ⟨named && 7 < parent, 0x04, at_ + 1⟩,
    ⟨named && parent == n, 0x05, at_ + 1⟩,
    ⟨named && m.read (4 + 8 * parent) != 0x01, 0x06, at_ + 1⟩,
    ⟨named && m.read (5 + 8 * parent) != 0xFF, 0x07, at_ + 1⟩,
    ⟨isDefined && imageWord m (at_ + 2) < imageWord m (at_ + 4), 0x08, at_ + 4⟩,
    ⟨isDefined && 2 < (m.read (at_ + 6)).toNat, 0x09, at_ + 6⟩,
    ⟨isDefined && 1 < (m.read (at_ + 7)).toNat, 0x0A, at_ + 7⟩ ]

/-- The checks of port `p`'s record in ascending offset (R149). -/
def portChecks (m : Memory) (p : Nat) : List ImageCheck :=
  let at_ := 68 + 22 * p
  let leaseMin := imageWord m (at_ + 2)
  let leaseMax := imageWord m (at_ + 4)
  [ ⟨3 < (m.read at_).toNat, 0x0B, at_⟩,
    ⟨7 < (m.read (at_ + 1)).toNat, 0x0C, at_ + 1⟩,
    ⟨leaseMin < 20, 0x0D, at_ + 2⟩,
    ⟨60000 < leaseMax, 0x0E, at_ + 4⟩,
    ⟨leaseMax < leaseMin, 0x0F, at_ + 4⟩ ]

/-- A check that the two-byte field at an offset lies between two bounds (R149). -/
def rangeCheck (m : Memory) (i lo hi : Nat) (code : Byte) : ImageCheck :=
  ⟨imageWord m i < lo || hi < imageWord m i, code, i⟩

/-- The checks of validation, in the order they are made (R149). -/
def imageChecks (m : Memory) : List ImageCheck :=
  [ ⟨imageWord m 0 == 0, 0x01, 0⟩, rangeCheck m 2 4000 16000 0x02 ] ++
  (List.range 8).flatMap (poolChecks m) ++
  (List.range 4).flatMap (portChecks m) ++
  [ ⟨16 < (m.read 156).toNat, 0x10, 156⟩,
    rangeCheck m 157 1 1000 0x11,
    rangeCheck m 159 10 60000 0x12,
    rangeCheck m 161 1 1000 0x11,
    rangeCheck m 163 10 60000 0x12,
    rangeCheck m 165 100 10000 0x13,
    ⟨m.read 167 != 0x00 && m.read 167 != 0x01, 0x14, 167⟩ ] ++
  (List.range 69).map fun k => ⟨m.read (184 + k) != 0xFF, 0x15, 184 + k⟩

/-- The first check of validation that fails, as detail code and offset; `none` for a valid image (R149). -/
def validate (m : Memory) : Option (Byte × Nat) :=
  ((imageChecks m).find? ImageCheck.fails).map fun c => (c.code, c.offset)

/-- The CRC-16 of bytes 0 to 252 (R148). -/
def imageCrc (m : Memory) : Word := crc16 (m.readRange 0 253)

/-- The state of a slot from its contents (R144). -/
def classify (m : Memory) : SlotState :=
  if m.isBlank then .blank
  else if m.read 253 = Config.sealMark ∧ imageWord m 254 = (imageCrc m).toNat ∧ validate m = none then .sealed
  else .damaged

/-! ## Loading -/

/-- A pool's sag group from its byte (R146). -/
def groupOf (b : Byte) : Option SagGroup := if b = 0x01 then some .a else if b = 0x02 then some .b else none

/-- A pool's parent from its byte (R146). -/
def parentOf (b : Byte) : Option PoolNo := if h : b.toNat < 8 then some ⟨b.toNat, h⟩ else none

/-- Load pool `n`'s figures (R146, R147). -/
def loadPool (m : Memory) (n : PoolNo) : PoolProfile :=
  let at_ := 4 + 8 * n.val
  if m.read at_ = 0x01 then
    { defined := true, parent := parentOf (m.read (at_ + 1)), nominal := imageWord m (at_ + 2),
      derated := imageWord m (at_ + 4), group := groupOf (m.read (at_ + 6)),
      policy := if m.read (at_ + 7) = 0x01 then .fit else .ordered }
  else PoolProfile.undefined

/-- Load port `p`'s record (R146, R147). -/
def loadPort (m : Memory) (p : Port) : PortProfile :=
  let at_ := 68 + 22 * p.val
  { priority := ⟨(m.read at_).toNat % 4, Nat.mod_lt _ (by decide)⟩,
    reserve := (m.read (at_ + 1)).getLsbD 0, interlock := (m.read (at_ + 1)).getLsbD 1,
    supervise := (m.read (at_ + 1)).getLsbD 2,
    leaseMin := imageWord m (at_ + 2), leaseMax := imageWord m (at_ + 4),
    quotas := tabulate 8 fun k => imageWord m (at_ + 6 + 2 * k.val) }

/-- Load an image into the profile copy, field by field (R147, R150). -/
def loadProfile (m : Memory) : Profile :=
  { version := imageWord m 0, clock := imageWord m 2, pools := tabulate 8 (loadPool m), ports := tabulate 4 (loadPort m),
    tokenCount := (m.read 156).toNat,
    sagA := { qualify := imageWord m 157, restore := imageWord m 159 },
    sagB := { qualify := imageWord m 161, restore := imageWord m 163 },
    auditTime := imageWord m 165, locked := m.read 167 == 0x01,
    siteLabel := tabulate 16 fun i => m.read (168 + i.val) }

namespace State

/-- Classify every slot from its contents (R145). -/
def classifySlots (s : State) : State :=
  { s with slots := tabulate 4 fun i => { s.imageSlot i with state := classify (s.imageSlot i).contents } }

/-- The highest-numbered SEALED slot (R150). -/
def highestSealed (s : State) : Option SlotNo :=
  (List.finRange 4).reverse.find? fun i => (s.imageSlot i).state == .sealed

/-- The lowest-numbered BLANK slot (R157). -/
def lowestBlank (s : State) : Option SlotNo :=
  (List.finRange 4).find? fun i => (s.imageSlot i).state == .blank

/-- The profile copy a start loads: the highest SEALED slot, or the UNCONFIGURED copy when there is none or in
commissioning state (R150, R151, R153). -/
def profileToLoad (s : State) : Profile :=
  if s.commissioning then Profile.unconfigured
  else
    match s.highestSealed with
    | none => Profile.unconfigured
    | some i => loadProfile (s.imageSlot i).contents

end State

/-! ## The seal -/

/-- The address of the `k`-th write of a seal: bytes 0 to 252, then 254 and 255, then the mark in 253 (R157). -/
def sealAddress (k : Nat) : Nat := if k < 253 then k else if k = 253 then 254 else if k = 254 then 255 else 253

/-- The value of the `k`-th write of a seal: the image's byte, the CRC-16 high and low byte, the seal mark (R157). -/
def sealByte (image : Memory) (k : Nat) : Byte :=
  if k < 253 then image.read k
  else if k = 253 then BitVec.ofNat 8 ((imageCrc image).toNat / 256)
  else if k = 254 then BitVec.ofNat 8 (imageCrc image).toNat
  else Config.sealMark

/-- The contents of a slot after the first `n` writes of a seal (R157). -/
def sealWrites (image : Memory) : Nat → Memory → Memory
  | 0, m => m
  | n + 1, m => (sealWrites image n m).program (sealAddress n) (sealByte image n)

/-- The contents a cut seal leaves: the writes made, and the byte then under programming with some of its bits not yet
turned to 0 (R158, log entry 11). -/
def sealCutContents (image : Memory) (cut : SealCut) (m : Memory) : Memory :=
  let t := sealWrites image (min cut.writes 256) m
  if cut.writes < 256 then t.program (sealAddress cut.writes) (sealByte image cut.writes ||| cut.unprogrammed) else t

/-- What the `k`-th write of a cut seal has written of its byte: all of it, some of its bits, or nothing (R158, log entry 11). -/
def sealCutByte (image : Memory) (cut : SealCut) (k : Nat) : Byte :=
  if k < cut.writes then sealByte image k
  else if k = cut.writes then sealByte image k ||| cut.unprogrammed
  else Config.unprogrammed

/-- Whether a cut seal had begun programming: a value other than 0xFF has been written, whether or not the memory held those
bits at 0 before (R157 step 4; of a write cut before its end, log entry 12). -/
def sealBegun (image : Memory) (cut : SealCut) : Bool :=
  (List.range 256).any fun k => sealCutByte image cut k != Config.unprogrammed

namespace State

/-- A disturbance of an image slot: bits of one byte turn to 0; the kept state stays until a start classifies the slot
(R144, R145, log entry 25). -/
def disturb (s : State) (d : Disturbance) : State :=
  s.setImageSlot d.slot
    { s.imageSlot d.slot with contents := (s.imageSlot d.slot).contents.program d.address d.kept }

/-- A seal in progress is aborted: the slot is DAMAGED if programming had begun, and stays BLANK otherwise (R158). A cut
may lie at any write, past a byte whose disturbance keeps it from reading back as intended as well, as if that byte was
disturbed after its read-back: the model's choice (log entry 33). -/
def abortSeal (s : State) (cut : SealCut) : State :=
  match s.sealing with
  | none => s
  | some w =>
    let before := s.imageSlot w.slot
    let contents := sealCutContents w.image cut before.contents
    { s.setImageSlot w.slot
        { contents := contents, state := if sealBegun w.image cut then .damaged else before.state } with
      sealing := none }

end State

end Sys2Proof.Machine
end

