-- ==== Sys2Proof/Machine/Work.lean ====
section
/-! DEFINITION. How work reaches the core: the steps a tick made due come about first, the item before is brought to its
end, and then the core takes a request in the rotation, or an event (R107, R119, R129, R167, R171; log entries 5 to 8). -/

namespace Sys2Proof.Machine

/-- What a step answers: the model has no fault and no refusal, so always a next state. -/
abbrev Result := Host.Outcome State Fault Refusal

namespace State

/-! ## Steps a tick made due -/

/-- A lease counter that reached 0 is stopped and a lapse event is handed on (R105, R107). -/
def leaseRunsOut (s : State) (p : Port) : State :=
  s.modPort p fun c => { c with lease := none, handedOn := c.handedOn ++ [.lapse] }

/-- A deadline that reached 0 makes an expiry event for its record (R58). -/
def deadlineRunsOut (s : State) (ticket : Nat) : State := { s with expiryEvents := s.expiryEvents ++ [ticket] }

/-- A line is seen to change to asserted (R83). -/
def lineAsserts (s : State) (g : SagGroup) : State :=
  match (s.line g).state with
  | .clear => s.setLine g { s.line g with state := .qualifying, timer := some (s.sagTimes g).qualify }
  | .restoring => s.setLine g { s.line g with state := .asserted, timer := none }
  | .qualifying => s
  | .asserted => s

/-- A line is seen to change to deasserted (R83). -/
def lineDeasserts (s : State) (g : SagGroup) : State :=
  match (s.line g).state with
  | .qualifying => s.setLine g { s.line g with state := .clear, timer := none }
  | .asserted => s.setLine g { s.line g with state := .restoring, timer := some (s.sagTimes g).restore }
  | .clear => s
  | .restoring => s

/-- The qualify timer expires: the line is ASSERTED and a derate event is sent (R83, R85). -/
def qualifyRunsOut (s : State) (g : SagGroup) : State :=
  match (s.line g).state with
  | .qualifying =>
    let t := s.setLine g { s.line g with state := .asserted, timer := none }
    { t with sagEvents := t.sagEvents ++ [.derate g] }
  | .clear => s
  | .asserted => s
  | .restoring => s

/-- The restore timer expires: the line is CLEAR and a restore event is sent (R83, R85). -/
def restoreRunsOut (s : State) (g : SagGroup) : State :=
  match (s.line g).state with
  | .restoring =>
    let t := s.setLine g { s.line g with state := .clear, timer := none }
    { t with sagEvents := t.sagEvents ++ [.restore g] }
  | .clear => s
  | .qualifying => s
  | .asserted => s

/-- The audit time reached 0: the audit-end event is made (R137). -/
def auditRunsOut (s : State) : State := { s with auditEndMade := true }

/-- A due step comes about. -/
def runDue (s : State) : Due → State
  | .lease p => s.leaseRunsOut p
  | .deadline t => s.deadlineRunsOut t
  | .lineAsserted g => s.lineAsserts g
  | .lineDeasserted g => s.lineDeasserts g
  | .qualify g => s.qualifyRunsOut g
  | .restore g => s.restoreRunsOut g
  | .audit => s.auditRunsOut

/-- Every step still due comes about (log entry 6). -/
def settle (s : State) : State := s.due.foldl runDue { s with due := [] }

end State

/-- The row of a due step: it comes about if it is due while the part runs; otherwise nothing happens (log entry 2). -/
def dueStep (s : State) (d : Due) : Result :=
  if s.phase = .running ∧ d ∈ s.due then .next (({ s with due := s.due.erase d } : State).runDue d) else .next s

namespace State

/-! ## The core takes work -/

/-- The steps due have come about, and the item before is at its end: its notices delivered, its answer placed (log
entries 5 and 6). -/
def ready (s : State) : State := s.settle.deliverPosts.placeAnswer

/-- Whether a request of a port waits for the core (R167, R171). -/
def requestWaits (s : State) (p : Port) : Bool :=
  (s.port p).handedOn.any fun h => match h with | .request _ => true | .lapse => false

/-- The port whose request the core takes next: the first waiting one after the port taken last, in cyclic order (R171). -/
def nextRequester (s : State) : Option Port :=
  [s.lastTaken + 1, s.lastTaken + 2, s.lastTaken + 3, s.lastTaken].find? s.requestWaits

/-- Whether the core takes this request of this port now: the part runs, the rotation is at the port, and the request
is the first thing its port controller has handed on (R107, R171). -/
def takes (s : State) (p : Port) (r : Request) : Bool :=
  s.phase == .running && s.nextRequester == some p && (s.port p).handedOn.head? == some (.request r)

/-- The request of a port is taken off what the port has handed on (R171). -/
def took (s : State) (p : Port) : State :=
  { s.modPort p fun c => { c with handedOn := c.handedOn.tail } with lastTaken := p }

end State

/-- The core takes a request as a work item: the session check of R102 or R154 comes first, then the command's own
checks and effect (R175). A request that the core does not take now leaves the part as it is (log entry 2). -/
def coreRequest (s : State) (p : Port) (r : Request) (effect : State → State) : Result :=
  if s.ready.takes p r then
    let t := s.ready.took p
    match t.sessionRefusal p r.command with
    | some status => .next (t.refuse p r.command status)
    | none => .next (effect t)
  else .next s

/-- The core takes an event as a work item, if `event` finds it waiting. -/
def coreEvent (s : State) (event : State → Option State) : Result :=
  if s.phase = .running then
    match event s.ready with
    | some t => .next t
    | none => .next s
  else .next s

end Sys2Proof.Machine
end

