-- ==== Sys2Proof/Machine/Link.lean ====
section
/-! DEFINITION. The host port link: CSN_FALL, the rows of a CSN rise, REPLY_PLACED and NOTICE_POST (R120, R122, R160 to
R170). -/

namespace Sys2Proof.Machine

namespace State

/-! ## The fall of CSN -/

/-- What a transaction whose CSN falls now shifts (R161). -/
def decideTransaction (s : State) (p : Port) : Transaction :=
  if s.phase ≠ .running then
    { kind := .notReady, reply := { status := .notReady, tag := 0, flags := 0, payload := [] } }
  else
    match (s.port p).processing with
    | some r => { kind := .pending, reply := { status := .pending, tag := r.tag, flags := s.flags p, payload := [] } }
    | none =>
      match (s.port p).reply with
      | some r => { kind := .fromSlot, reply := r }
      | none => { kind := .noReply, reply := { status := .noReply, tag := 0, flags := s.flags p, payload := [] } }

/-! ## The rise of CSN -/

/-- The transaction ends; `miso` are the bytes it shifted (R161). -/
def closeTransaction (s : State) (p : Port) (miso : List Byte) : State :=
  s.modPort p fun c => { c with transaction := none, miso := miso }

/-- Consumption: a reply of the slot whose status byte was shifted leaves the slot and becomes the last-reply copy
(R162). -/
def consume (s : State) (p : Port) (t : Transaction) (mosi : List Byte) : State :=
  if t.kind = .fromSlot ∧ mosi ≠ [] then
    s.modPort p fun c => { c with reply := none, lastReply := some t.reply }
  else s

/-- A taken frame reloads a running lease counter with the port's lease period (R106). A counter that the last tick
brought to 0 and whose expiry has not yet come about is still running: the frame comes first, and the expiry does not
happen (R110). -/
def reloadLease (s : State) (p : Port) : State :=
  { s.modPort p fun c => { c with lease := c.lease.map fun _ => (s.session p).leasePeriod } with
    due := s.due.filter (· ≠ .lease p) }

/-- Whether the port controller answers COMMISSIONING itself (R154). -/
def answersCommissioning (s : State) (p : Port) : Bool := s.commissioning && p != 0

/-- A NOP is taken (R166, R169). -/
def takeNop (s : State) (p : Port) (tag : Byte) : State :=
  let t := s.reloadLease p
  if t.answersCommissioning p then t.placeReply p .commissioning tag [] else t.placeReply p .ok tag []

/-- An RPT is taken (R166, R170). -/
def takeRpt (s : State) (p : Port) (tag : Byte) : State :=
  let t := s.reloadLease p
  if t.answersCommissioning p then t.placeReply p .commissioning tag []
  else
    match (t.port p).lastReply with
    | some r => t.placeReply p r.status r.tag r.payload
    | none => t.placeReply p .noReply tag []

/-- An NTF is taken (R122, R166, R169). -/
def takeNtf (s : State) (p : Port) (tag : Byte) : State :=
  let t := s.reloadLease p
  if t.answersCommissioning p then t.placeReply p .commissioning tag (ntfPayload none)
  else
    match (t.port p).notices with
    | [] => t.placeReply p .ok tag (ntfPayload none)
    | n :: rest => (t.modPort p fun c => { c with notices := rest }).placeReply p .ok tag (ntfPayload (some n))

/-- A request of the core is taken: it is handed on and is in processing (R166, R167). -/
def takeRequest (s : State) (p : Port) (r : Request) : State :=
  let t := s.reloadLease p
  if t.answersCommissioning p then t.placeReply p .commissioning r.tag (zeroPayload r.command)
  else t.modPort p fun c => { c with processing := some r, handedOn := c.handedOn ++ [.request r] }

end State

/-- CSN rises on a transaction whose frame is examined: consumption first, then what the frame asks for (R162). A
transaction that shifted NOT_READY or PENDING, or was cut, is not examined. An expiry that is due stays due: it and the
frame may come in either order (R110, log entry 6). -/
def csnRise (s : State) (p : Port) (mosi : List Byte) (act : State → State) : Result :=
  match (s.port p).transaction with
  | none => .next s
  | some t =>
    if t.kind = .fromSlot ∨ t.kind = .noReply then
      .next (act ((s.closeTransaction p (t.reply.shifted mosi.length)).consume p t mosi))
    else .next s

/-! ## The rows -/

/-- CSN_FALL (R161, R168). Without power, or while CSN is already low, there is nothing to decide. -/
def execCsnFall (p : Port) (s : State) : Result :=
  if s.phase = .off ∨ (s.port p).transaction.isSome then .next s
  else .next (s.modPort p fun c => { c with transaction := some (s.decideTransaction p) })

/-- NOP (R169). -/
def execNop (p : Port) (mosi : List Byte) (s : State) : Result :=
  match examine mosi with
  | .nop tag => csnRise s p mosi fun t => t.takeNop p tag
  | _ => .next s

/-- RPT (R170). -/
def execRpt (p : Port) (mosi : List Byte) (s : State) : Result :=
  match examine mosi with
  | .rpt tag => csnRise s p mosi fun t => t.takeRpt p tag
  | _ => .next s

/-- NTF (R122, R169). -/
def execNtf (p : Port) (mosi : List Byte) (s : State) : Result :=
  match examine mosi with
  | .ntf tag => csnRise s p mosi fun t => t.takeNtf p tag
  | _ => .next s

/-- FILL (R160): nothing is examined and nothing is placed. A transaction of no whole byte ends by this row too and
leaves the port controller as it found it (log entry 13). -/
def execFill (p : Port) (mosi : List Byte) (s : State) : Result :=
  match examine mosi with
  | .fill => csnRise s p mosi id
  | .noByte => csnRise s p mosi id
  | _ => .next s

/-- REQUEST_TAKEN (R166 step 5). -/
def execRequestTaken (p : Port) (mosi : List Byte) (s : State) : Result :=
  match examine mosi with
  | .request r => csnRise s p mosi fun t => t.takeRequest p r
  | _ => .next s

/-- FRAME_ERROR (R166 steps 2 to 4). -/
def execFrameError (p : Port) (mosi : List Byte) (s : State) : Result :=
  match examine mosi with
  | .frameError tag => csnRise s p mosi fun t => t.placeReply p .frameError tag []
  | _ => .next s

/-- UNKNOWN (R166 step 2). -/
def execUnknown (p : Port) (mosi : List Byte) (s : State) : Result :=
  match examine mosi with
  | .unknown tag => csnRise s p mosi fun t => t.placeReply p .unknown tag []
  | _ => .next s

/-- PENDING: a transaction made while a request is in processing ends; its frame is discarded (R167). -/
def execPending (p : Port) (mosi : List Byte) (s : State) : Result :=
  match (s.port p).transaction with
  | none => .next s
  | some t =>
    if t.kind = .pending then .next (s.closeTransaction p (t.reply.shifted mosi.length)) else .next s

/-- NOT_READY: a transaction made while the part is in reset or starting ends, or one that a reset cut after `before`
bytes; its frame is discarded (R168, log entry 14). -/
def execNotReady (p : Port) (mosi : List Byte) (before : Nat) (s : State) : Result :=
  match (s.port p).transaction with
  | none => .next s
  | some t =>
    match t.kind with
    | .notReady => .next (s.closeTransaction p (t.reply.shifted mosi.length))
    | .cut =>
      .next (s.closeTransaction p
        (t.reply.shifted (min before mosi.length) ++ List.replicate (mosi.length - before) Config.fill))
    | .pending => .next s
    | .fromSlot => .next s
    | .noReply => .next s

/-- REPLY_PLACED: the answer to the request of a port is placed, the item's notices before it (R119, R167). -/
def execReplyPlaced (p : Port) (s : State) : Result :=
  match s.answering with
  | none => .next s
  | some a => if s.coreActive ∧ a.port = p then .next s.deliverPosts.placeAnswer else .next s

/-- NOTICE_POST: the oldest notice handed to a port controller is stored, or discarded with MISSED set (R120). -/
def execNoticePost (p : Port) (s : State) : Result :=
  match s.transit.find? fun pn => pn.1 == p with
  | none => .next s
  | some pn =>
    if s.coreActive then
      .next (({ s with transit := s.transit.eraseP fun pn => pn.1 == p } : State).modPort p (·.store pn.2))
    else .next s

end Sys2Proof.Machine
end

