-- ==== Sys2Proof/Machine/Commissioning.lean ====
section
/-! DEFINITION. Commissioning: SRD, STG, CHK, SEL, SEAL_END (R154 to R159, R196 to R199). -/

namespace Sys2Proof.Machine

namespace State

/-- A commissioning command outside commissioning state is refused NO_RIGHT, whatever the port's rights (R154, R196). -/
def inStore (s : State) (p : Port) (c : Command) (effect : State → State) : State :=
  if s.commissioning then effect s else s.refuse p c .noRight

/-- The image slot an operand names (R156). -/
def slotOf? (b : Byte) : Option SlotNo := if h : b.toNat < 4 then some ⟨b.toNat, h⟩ else none

/-- SRD in commissioning state (R156, R196). -/
def answerSrd (s : State) (p : Port) (slot block : Byte) : State :=
  match slotOf? slot with
  | none => s.refuse p (.srd slot block) .badValue
  | some i =>
    if 15 < block.toNat then s.refuse p (.srd slot block) .badValue
    else
      s.replyWith p .ok ([(s.imageSlot i).state.code] ++ (s.imageSlot i).contents.readRange (16 * block.toNat) 16)

/-- STG in commissioning state: the 16 data bytes replace the block's (R155, R197). -/
def answerStg (s : State) (p : Port) (block : Byte) (data : List Byte) : State :=
  if 15 < block.toNat then s.refuse p (.stg block data) .badValue
  else
    ({ s with staging := s.staging.writeAll (16 * block.toNat) (data.take 16) } : State).replyWith p .ok []

/-- CHK in commissioning state (R156, R198). -/
def answerChk (s : State) (p : Port) : State :=
  match validate s.staging with
  | none => s.replyWith p .ok (byteField 0 ++ byteField 0)
  | some (code, offset) => s.replyWith p .stagingInvalid ([code] ++ byteField offset)

/-- SEL in commissioning state: the buffer is validated, the lowest BLANK slot chosen, the seal begun (R157, R199). -/
def answerSel (s : State) (p : Port) : State :=
  match validate s.staging with
  | some (code, offset) => s.replyWith p .stagingInvalid (byteField 0 ++ [code] ++ byteField offset)
  | none =>
    match s.lowestBlank with
    | none => s.refuse p .sel .noSlot
    | some i => { s with sealing := some { slot := i, image := s.staging.imagePart } }

/-- Whether each of the first `n` writes of a seal over a slot's bytes reads back as intended: bits turn from 1 to 0 alone
(R144, R157). -/
def readsBack (image m : Memory) (n : Nat) : Bool :=
  (List.range n).all fun k => m.read (sealAddress k) &&& sealByte image k == sealByte image k

/-- The contents a finished seal leaves, bits turned from 1 to 0 alone (R144). `none` for an end that the slot's bytes rule
out (log entry 11): one that leaves unnoticed a read-back that must differ, and one at a byte that reads back as intended, is
none of the seal's or lies outside the slot (R157). A byte whose intended value is 0xFF can read back otherwise too: its write
then turned bits of it, which is the model's choice (log entry 35). -/
def sealedContents (w : Seal) (m : Memory) : SealResult → Option Memory
  | .whole => if readsBack w.image m 256 then some (sealWrites w.image 256 m) else none
  | .readBackDiffers k v =>
    if k < 256 ∧ readsBack w.image m k ∧ m.read (sealAddress k) &&& v ≠ sealByte w.image k then
      some ((sealWrites w.image k m).program (sealAddress k) v)
    else none
  | .foundOtherwise turned =>
    if readsBack w.image m 256 ∧ turned.all fun c => c.1 < 256 then some ((sealWrites w.image 256 m).programAll turned)
    else none

/-- The kept state a finished seal leaves: SEALED when every byte read back right and the slot classifies so, else
DAMAGED (R157 steps 6 and 7). -/
def sealedState (contents : Memory) : SealResult → SlotState
  | .whole => if classify contents = .sealed then .sealed else .damaged
  | .readBackDiffers _ _ => .damaged
  | .foundOtherwise _ => if classify contents = .sealed then .sealed else .damaged

/-- The reply to a SEL is placed on P0, ending its processing (R157, R167). -/
def placeSealReply (s : State) (status : Status) (slot : SlotNo) : State :=
  let tag := match (s.port 0).processing with | some r => r.tag | none => 0
  (s.modPort 0 fun c => { c with processing := none }).placeReply 0 status tag (byteField slot ++ byteField 0 ++ byteField 0)

/-- The seal in progress ends (R157). -/
def finishSeal (s : State) (w : Seal) (contents : Memory) (result : SealResult) : State :=
  let kept := sealedState contents result
  let t := { s.setImageSlot w.slot { contents := contents, state := kept } with sealing := none }
  t.placeSealReply (if kept = .sealed then .ok else .sealFailed) w.slot

end State

/-- SRD (R196). -/
def execSrd (p : Port) (tag slot block : Byte) (s : State) : Result :=
  coreRequest s p ⟨tag, .srd slot block⟩ fun t => t.inStore p (.srd slot block) fun u => u.answerSrd p slot block

/-- STG (R197). -/
def execStg (p : Port) (tag block : Byte) (data : List Byte) (s : State) : Result :=
  coreRequest s p ⟨tag, .stg block data⟩ fun t => t.inStore p (.stg block data) fun u => u.answerStg p block data

/-- CHK (R198). -/
def execChk (p : Port) (tag : Byte) (s : State) : Result :=
  coreRequest s p ⟨tag, .chk⟩ fun t => t.inStore p .chk fun u => u.answerChk p

/-- SEL (R199). -/
def execSel (p : Port) (tag : Byte) (s : State) : Result :=
  coreRequest s p ⟨tag, .sel⟩ fun t => t.inStore p .sel fun u => u.answerSel p

/-- SEAL_END (R157): a seal can end while the part runs, and while a reset asked for has not been taken (R159). -/
def execSealEnd (result : SealResult) (s : State) : Result :=
  match s.sealing with
  | none => .next s
  | some w =>
    if s.coreActive then
      match State.sealedContents w (s.imageSlot w.slot).contents result with
      | none => .next s
      | some contents => .next (s.finishSeal w contents result)
    else .next s

end Sys2Proof.Machine
end

