-- ==== Sys2Proof/Machine/Grants.lean ====
section
/-! DEFINITION. Grants and waiting requests: RSV, ADJ, REL, CAN, CNF, DEADLINE_EXPIRY, EXPIRY_EVENT (R178 to R183, R58,
R59). -/

namespace Sys2Proof.Machine

namespace State

/-! ## RSV -/

/-- The record an RSV queues (R44). -/
def recordOf (s : State) (p : Port) (tag : Byte) (n : PoolNo) (floor max wait : Word) : WaitRecord :=
  { port := p, pool := n, floor := floor.toNat, max := max.toNat, priority := (s.portProfile p).priority,
    deadline := if wait = Config.unlimitedWait then none else some wait.toNat, tag := tag }

/-- Set the family's slot-wait mark if the grant table has no FREE slot (R28). -/
def markIfFull (s : State) (n : PoolNo) : State :=
  if s.freeGrantSlot.isNone then s.setMark (s.rootOf n) true else s

/-- RSV queues its request, or is refused QUEUE_FULL (R44, R179). -/
def queueRsv (s : State) (p : Port) (tag : Byte) (pool : Byte) (n : PoolNo) (floor max wait : Word) : State :=
  match s.freeWaitSlot with
  | none => s.refuse p (.rsv pool floor max wait) .queueFull
  | some w =>
    if Config.waitsPerPort ≤ s.recordCount p then s.refuse p (.rsv pool floor max wait) .queueFull
    else
      ((s.queueRecord w (s.recordOf p tag n floor max wait)).markIfFull n).replyWith p .queued
        (rsvPayload 0 0 (s.ticketOf w))

/-- The outcome of an RSV that passed every check of R178 (R179). -/
def decideRsv (s : State) (p : Port) (tag : Byte) (pool : Byte) (n : PoolNo) (floor max wait : Word) : State :=
  let units := s.grantable p n max.toNat
  let fits := floor.toNat ≤ units && s.aheadPasses p n
  match s.freeGrantSlot with
  | some i =>
    if fits then
      (s.createGrant i { state := .active, port := p, pool := n, units := units, floor := floor.toNat }).replyWith p .ok
        (rsvPayload (s.handleOf i) units 0)
    else if wait = 0 then s.refuse p (.rsv pool floor max wait) .noRoom
    else s.queueRsv p tag pool n floor max wait
  | none =>
    if wait = 0 then s.refuse p (.rsv pool floor max wait) (if fits then .tableFull else .noRoom)
    else s.queueRsv p tag pool n floor max wait

/-- RSV's own checks and outcome (R178, R179). -/
def answerRsv (s : State) (p : Port) (tag : Byte) (pool : Byte) (floor max wait : Word) : State :=
  let c := Command.rsv pool floor max wait
  if !(s.portProfile p).reserve then s.refuse p c .noRight
  else
    match s.definedPool? pool with
    | none => s.refuse p c .badPool
    | some n =>
      match firstFailure
          [ (s.quota p n != 0, .noRight),
            (1 ≤ floor.toNat && floor.toNat ≤ max.toNat, .badValue),
            (floor.toNat ≤ s.quotaRoom p n, .overQuota),
            (s.nominalFit n floor.toNat, .noRoom) ] with
      | some status => s.refuse p c status
      | none => s.decideRsv p tag pool n floor max wait

/-! ## ADJ -/

/-- ADJ of an ACTIVE grant of the requester to `v` units (R180). -/
def adjustGrant (s : State) (p : Port) (c : Command) (i : GrantNo) (g : Grant) (v : Nat) : State :=
  if v = g.units then s.replyWith p .ok (grantPayload g)
  else if v < g.units then
    ((s.shrinkGrant i g v).servicePass [s.rootOf g.pool]).replyWith p .ok
      (grantPayload { g with units := v, floor := min g.floor v })
  else
    match firstFailure
        [ (v - g.units ≤ s.available g.pool, .noRoom),
          (v - g.units ≤ s.quotaRoom p g.pool, .overQuota),
          (s.aheadPasses p g.pool, .noRoom) ] with
    | some status => s.refuse p c status
    | none => (s.growGrant i g v).replyWith p .ok (grantPayload { g with units := v })

/-- ADJ's own checks and effect (R180). -/
def answerAdj (s : State) (p : Port) (handle units : Word) : State :=
  let c := Command.adj handle units
  if units = 0 then s.refuse p c .badValue
  else
    match s.ownGrant p handle with
    | none => s.refuse p c .badHandle
    | some (i, g) =>
      match g.state with
      | .audit => s.refuse p c .inAudit
      | .active => s.adjustGrant p c i g units.toNat

/-! ## REL, CAN, CNF -/

/-- A grant is freed and the pass of R33 is run: over its family and every marked one. `told` are the notices and
session changes that come between (R33, R139). -/
def freeAndServe (s : State) (i : GrantNo) (g : Grant) (told : State → State) : State :=
  (told (s.freeGrant i)).closeIfDone.servicePass (s.rootOf g.pool :: s.markedFamilies)

/-- REL's own check and effect (R181). -/
def answerRel (s : State) (p : Port) (handle : Word) : State :=
  match s.ownGrant p handle with
  | none => s.refuse p (.rel handle) .badHandle
  | some (i, g) => (s.freeAndServe i g id).replyWith p .ok []

/-- A record is removed by its owner or by its deadline; a pass follows when it was the head of an ORDERED queue (R59,
R60). `told` posts what the ending posts. -/
def endRecord (s : State) (w : WaitNo) (r : WaitRecord) (told : State → State) : State :=
  let t := told (s.removeRecord w)
  if s.isOrderedHead w then t.servicePass [s.rootOf r.pool] else t

/-- CAN's own check and effect (R60, R182). -/
def answerCan (s : State) (p : Port) (ticket : Word) : State :=
  match s.ownRecord p ticket with
  | none => s.refuse p (.can ticket) .badTicket
  | some (w, r) => (s.endRecord w r id).replyWith p .ok []

/-- CNF's own checks and effect (R183). -/
def answerCnf (s : State) (p : Port) (handle : Word) : State :=
  let c := Command.cnf handle
  match s.ownGrant p handle with
  | none => s.refuse p c .badHandle
  | some (i, g) =>
    match g.state with
    | .active => s.refuse p c .notAudit
    | .audit => (s.putGrant i { g with state := .active }).closeIfDone.replyWith p .ok (grantPayload g)

/-- The core takes an expiry event: the record that made it, if still live, is removed with WAIT_ENDED cause EXPIRED
(R59). The event is tied to that record and to no later one of the same ticket: a live record has made its event exactly
when its own remaining deadline is 0 (R58), so a record with time left, or with no deadline, is not the event's. -/
def takeExpiry (s : State) (ticket : Nat) : Option State :=
  if ticket ∈ s.expiryEvents then
    let t := { s with expiryEvents := s.expiryEvents.erase ticket }
    match t.resolveTicket ticket with
    | none => some t
    | some (w, r) =>
      if r.deadline = some 0 then some (t.endRecord w r fun u => u.post r.port (.waitEnded ticket .expired r.tag))
      else some t
  else none

end State

/-- RSV (R178, R179). -/
def execRsv (p : Port) (tag pool : Byte) (floor max wait : Word) (s : State) : Result :=
  coreRequest s p ⟨tag, .rsv pool floor max wait⟩ fun t => t.answerRsv p tag pool floor max wait

/-- ADJ (R180). -/
def execAdj (p : Port) (tag : Byte) (handle units : Word) (s : State) : Result :=
  coreRequest s p ⟨tag, .adj handle units⟩ fun t => t.answerAdj p handle units

/-- REL (R181). -/
def execRel (p : Port) (tag : Byte) (handle : Word) (s : State) : Result :=
  coreRequest s p ⟨tag, .rel handle⟩ fun t => t.answerRel p handle

/-- CAN (R182). -/
def execCan (p : Port) (tag : Byte) (ticket : Word) (s : State) : Result :=
  coreRequest s p ⟨tag, .can ticket⟩ fun t => t.answerCan p ticket

/-- CNF (R183). -/
def execCnf (p : Port) (tag : Byte) (handle : Word) (s : State) : Result :=
  coreRequest s p ⟨tag, .cnf handle⟩ fun t => t.answerCnf p handle

/-- DEADLINE_EXPIRY (R58). -/
def execDeadlineExpiry (ticket : Word) (s : State) : Result := dueStep s (.deadline ticket.toNat)

/-- EXPIRY_EVENT (R59). -/
def execExpiryEvent (ticket : Word) (s : State) : Result := coreEvent s fun t => t.takeExpiry ticket.toNat

end Sys2Proof.Machine
end

