-- ==== Sys2Proof/Machine/Queries.lean ====
section
/-! DEFINITION. The queries: QGR, QPL, QPT, QDV (R184 to R187). -/

namespace Sys2Proof.Machine

namespace State

/-- QGR's reply: state, port, pool, units, floor (R184). -/
def qgrPayload (g : Grant) : List Byte :=
  [g.state.code] ++ byteField g.port ++ byteField g.pool ++ wordField g.units ++ wordField g.floor

/-- QGR's own check and answer (R184). -/
def answerQgr (s : State) (p : Port) (handle : Word) : State :=
  match s.resolveHandle handle.toNat with
  | none => s.refuse p (.qgr handle) .badHandle
  | some (_, g) => s.replyWith p .ok (qgrPayload g)

/-- QPL's reply (R173, R185). -/
def qplPayload (s : State) (p : Port) (n : PoolNo) : List Byte :=
  let q := s.pool n
  [parentCode q.parent, groupCode q.group, q.policy.code, q.derateState.code] ++
    wordField q.nominal ++ wordField q.derated ++ wordField q.effective ++ wordField q.charged ++ wordField q.room ++
    byteField q.queue.length ++ wordField (s.held p n) ++ wordField (s.quota p n)

/-- QPL's own check and answer (R185). -/
def answerQpl (s : State) (p : Port) (pool : Byte) : State :=
  match s.definedPool? pool with
  | none => s.refuse p (.qpl pool) .badPool
  | some n => s.replyWith p .ok (s.qplPayload p n)

/-- The number of a port's live grants, ACTIVE and AUDIT (R186). -/
def grantCount (s : State) (p : Port) : Nat := (s.liveGrants.filter fun g => g.port == p).length

/-- QPT's reply (R173, R186). -/
def qptPayload (s : State) (p : Port) : List Byte :=
  byteField (s.grantCount p) ++ byteField (s.recordCount p) ++ maskField (s.heldMask p) ++ maskField (s.auditMask p) ++
    maskField (s.watch p) ++ wordField (s.session p).leasePeriod ++ wordField ((s.port p).lease.getD 0) ++
    byteField (s.port p).notices.length

/-- QPT gathers the figures and then clears MISSED (R124, R186). -/
def answerQpt (s : State) (p : Port) : State :=
  (s.modPort p fun c => { c with missed := false }).replyWith p .ok (s.qptPayload p)

/-- The number of FREE grant slots (R187). -/
def freeGrantCount (s : State) : Nat := 64 - s.liveGrants.length

/-- The number of FREE wait slots (R187). -/
def freeWaitCount (s : State) : Nat := 32 - s.liveRecords.length

/-- QDV's reply (R173, R187). -/
def qdvPayload (s : State) : List Byte :=
  wordField s.profile.version ++ [s.startKind.code] ++ byteField s.restartCount ++ wordField s.window.remaining ++
    byteField (if s.commissioning then 1 else 0) ++ byteField s.profile.tokenCount ++ byteField s.freeGrantCount ++
    byteField s.freeWaitCount ++ s.profile.siteLabel.toList

end State

/-- QGR (R184). -/
def execQgr (p : Port) (tag : Byte) (handle : Word) (s : State) : Result :=
  coreRequest s p ⟨tag, .qgr handle⟩ fun t => t.answerQgr p handle

/-- QPL (R185). -/
def execQpl (p : Port) (tag pool : Byte) (s : State) : Result :=
  coreRequest s p ⟨tag, .qpl pool⟩ fun t => t.answerQpl p pool

/-- QPT (R186). -/
def execQpt (p : Port) (tag : Byte) (s : State) : Result :=
  coreRequest s p ⟨tag, .qpt⟩ fun t => t.answerQpt p

/-- QDV (R187). -/
def execQdv (p : Port) (tag : Byte) (s : State) : Result :=
  coreRequest s p ⟨tag, .qdv⟩ fun t => t.replyWith p .ok t.qdvPayload

end Sys2Proof.Machine
end

