-- ==== Sys2Proof/Machine/Sag.lean ====
section
/-! DEFINITION. The sag lines and the derate and restore events (R82 to R94). -/

namespace Sys2Proof.Machine

namespace State

/-- Whether a pool is a defined pool of a sag group (R2, R81). -/
def inGroup (s : State) (g : SagGroup) (n : PoolNo) : Bool := (s.pool n).defined && (s.pool n).group == some g

/-- A derate event handles one pool of its group: DERATED, then shed if overdrawn (R86). -/
def deratePool (s : State) (n : PoolNo) : State :=
  (s.modPool n fun q => { q with derateState := .derated }).shed n

/-- A derate event: the group's defined pools in ascending number; then what the sheds did to AUDIT holdings (R86, R91,
R113, R139). -/
def derate (s : State) (g : SagGroup) : State :=
  (((List.finRange 8).filter (s.inGroup g)).foldl deratePool s).detachBare.closeIfDone

/-- The DERATED pools of a group (R92). -/
def deratedPools (s : State) (g : SagGroup) : List PoolNo :=
  (List.finRange 8).filter fun n => s.inGroup g n && (s.pool n).derateState == .derated

/-- A restore event: the group's DERATED pools become NORMAL, and one pass runs over their families (R92). -/
def restore (s : State) (g : SagGroup) : State :=
  let pools := s.deratedPools g
  let t := pools.foldl (fun u n => u.modPool n fun q => { q with derateState := .normal }) s
  t.servicePass (pools.map s.rootOf)

/-- The group an event of the sag monitor is for. -/
def eventGroup (e : SagEvent) : SagGroup :=
  match e with
  | .derate g => g
  | .restore g => g

/-- The core takes an event of the sag monitor if it is the first waiting one of its line (R85). -/
def takeSagEvent (s : State) (e : SagEvent) (effect : State → State) : Option State :=
  if s.sagEvents.find? (fun f => eventGroup f == eventGroup e) = some e then
    some (effect { s with sagEvents := s.sagEvents.erase e })
  else none

end State

/-- LINE_ASSERTED (R83). -/
def execLineAsserted (g : SagGroup) (s : State) : Result := dueStep s (.lineAsserted g)

/-- LINE_DEASSERTED (R83). -/
def execLineDeasserted (g : SagGroup) (s : State) : Result := dueStep s (.lineDeasserted g)

/-- QUALIFY_TIMER_EXPIRY (R83). -/
def execQualifyTimerExpiry (g : SagGroup) (s : State) : Result := dueStep s (.qualify g)

/-- RESTORE_TIMER_EXPIRY (R83). -/
def execRestoreTimerExpiry (g : SagGroup) (s : State) : Result := dueStep s (.restore g)

/-- DERATE_EVENT (R86). -/
def execDerateEvent (g : SagGroup) (s : State) : Result :=
  coreEvent s fun t => t.takeSagEvent (.derate g) fun u => u.derate g

/-- RESTORE_EVENT (R92). -/
def execRestoreEvent (g : SagGroup) (s : State) : Result :=
  coreEvent s fun t => t.takeSagEvent (.restore g) fun u => u.restore g

end Sys2Proof.Machine
end

