-- ==== Sys2Proof/Machine/Sessions.lean ====
section
/-! DEFINITION. Sessions and leases: ATT, DET, EVC, LEASE_EXPIRY, LAPSE (R99 to R114, R176, R177, R194). -/

namespace Sys2Proof.Machine

/-- ATT's reply: start kind, restart count, image version, AUDIT grant count, AUDIT-token mask (R104, R176). -/
def State.attPayload (s : State) (p : Port) : List Byte :=
  [s.startKind.code] ++ byteField s.restartCount ++ wordField s.profile.version ++ byteField (s.auditGrantCount p) ++
    maskField (s.auditMask p)

/-- What a port has handed on, as an accepted ATT leaves it: a session that comes back to ATTACHED cannot receive a lapse event
made before, so none made by then stays (R109); that the ATT discards it is log entry 32. A port that is ATTACHED already keeps
what it has handed on (R107). -/
def State.afterAttach (s : State) (p : Port) : List HandedOn :=
  if (s.session p).state = .attached then (s.port p).handedOn else (s.port p).handedOn.filter (· ≠ .lapse)

/-- The effect of an accepted ATT (R104, R109). -/
def State.attach (s : State) (p : Port) (lease : Word) : State :=
  (s.setSession p { state := .attached, leasePeriod := lease.toNat, lapseCause := none }).modPort p fun c =>
    { c with lease := some lease.toNat, handedOn := s.afterAttach p }

/-- ATT's own checks and effect (R103, R104, R176). -/
def State.answerAtt (s : State) (p : Port) (lease : Word) : State :=
  let c := Command.att lease
  match firstFailure
      [ (!s.unconfigured, .noProfile),
        ((s.portProfile p).leaseMin ≤ lease.toNat && lease.toNat ≤ (s.portProfile p).leaseMax, .badValue) ] with
  | some status => s.refuse p c status
  | none => let t := s.attach p lease; t.replyWith p .ok (t.attPayload p)

/-- ATT (R176). -/
def execAtt (p : Port) (tag : Byte) (lease : Word) (s : State) : Result :=
  coreRequest s p ⟨tag, .att lease⟩ fun t => t.answerAtt p lease

/-- DET (R177): the detachment of R111, then OK. -/
def execDet (p : Port) (tag : Byte) (s : State) : Result :=
  coreRequest s p ⟨tag, .det⟩ fun t => (t.detachSession p).replyWith p .ok []

/-- EVC's own checks and effect (R112, R194). -/
def State.answerEvc (s : State) (p : Port) (target : Byte) : State :=
  let c := Command.evc target
  if !(s.portProfile p).supervise then s.refuse p c .noRight
  else
    match State.portOf? target with
    | none => s.refuse p c .badValue
    | some q =>
      if q = p then s.refuse p c .badValue
      else
        match (s.session q).state with
        | .detached => s.refuse p c .notAttached
        | .lapsed => s.refuse p c .notAttached
        | .attached => (s.lapseSession q .evicted).replyWith p .ok []
        | .recovering => (s.lapseSession q .evicted).replyWith p .ok []

/-- EVC (R194). -/
def execEvc (p : Port) (tag : Byte) (target : Byte) (s : State) : Result :=
  coreRequest s p ⟨tag, .evc target⟩ fun t => t.answerEvc p target

/-- LEASE_EXPIRY (R105). -/
def execLeaseExpiry (p : Port) (s : State) : Result := dueStep s (.lease p)

/-- The core takes a port's lapse event: an ATTACHED port lapses with cause LEASE, any other is left as it is (R108, R109). A
lapse event never stands here for an earlier session: the ATT that brings a session back discards it (log entry 32). -/
def State.takeLapse (s : State) (p : Port) : Option State :=
  match (s.port p).handedOn with
  | .lapse :: rest =>
    let t := s.modPort p fun c => { c with handedOn := rest }
    if (t.session p).state = .attached then some (t.lapseSession p .lease) else some t
  | .request _ :: _ => none
  | [] => none

/-- LAPSE (R108). -/
def execLapse (p : Port) (s : State) : Result := coreEvent s fun t => t.takeLapse p

end Sys2Proof.Machine
end

