-- ==== Sys2Proof/Machine/Starts.lean ====
section
/-! DEFINITION. Resets and starts: RSTN_LOW, WARM_RESET, RSTN_HIGH, WARM_START, POWER_ON, COLD_START, POWER_INTERRUPTION
(R129 to R136, R142, R143, R150, R153, R158). -/

namespace Sys2Proof.Machine

namespace State

/-! ## Entering reset -/

/-- The transactions in progress are cut; one whose CSN fell during a start goes on shifting NOT_READY to its end (R168). For one
that is still going on when that start has completed and the next reset is entered, R168 also has 0xFF from then on: that it
keeps NOT_READY is the model's choice (log entry 34). -/
def cutTransactions (s : State) : State :=
  { s with
    ports := tabulate 4 fun p =>
      { s.port p with
        transaction := (s.port p).transaction.map fun t => if t.kind = .notReady then t else { t with kind := .cut } } }

/-- The part enters reset: a warm reset is asked for, and the core has not yet taken it (R129, R168). -/
def enterReset (s : State) : State := { s.cutTransactions with phase := .resetTaking }

/-- RSTN goes low (R130). -/
def rstnFalls (s : State) : State :=
  let t := { s with rstn := .low }
  match s.phase with
  | .running => t.enterReset
  | .warmStarting => { t with phase := .inReset }
  | .coldStarting => { t with phase := .coldWaiting }
  | .off => t
  | .coldWaiting => t
  | .resetTaking => t
  | .inReset => t

/-- RSTN returns high (R130). -/
def rstnRises (s : State) : State :=
  let t := { s with rstn := .high }
  match s.phase with
  | .inReset => { t with phase := .warmStarting }
  | .coldWaiting => { t with phase := .coldStarting }
  | .off => t
  | .coldStarting => t
  | .resetTaking => t
  | .warmStarting => t
  | .running => t

/-- Every port controller as a start finds it: no reply, no copy, no request, counter stopped, no notice, MISSED clear
(R128, R136, R172). -/
def freshPorts (s : State) : State :=
  { s with ports := tabulate 4 fun p => PortCtl.fresh (s.port p).transaction (s.port p).miso }

/-- Work not yet taken is discarded (R127, R128, R129, R136). -/
def discardWork (s : State) : State :=
  { s.freshPorts with
    answering := none, transit := [], expiryEvents := [], sagEvents := [], auditEndMade := false, due := [] }

/-- The core takes the warm reset: untaken work is discarded, the queues and slots of the ports are emptied, a seal is
aborted; the warm start begins at once unless RSTN is low (R128, R129, R130, R158). -/
def takeReset (s : State) (cut : SealCut) : State :=
  { (s.abortSeal cut).discardWork with phase := if s.rstn = .low then .inReset else .warmStarting }

/-! ## Starts -/

/-- What every start does first: the slots are classified, the staging buffer is set to 0xFF, no seal is in progress
(R145, R155). -/
def beginStart (s : State) : State := { s.classifySlots with staging := [], sealing := none }

/-- Every table at its cold-start value, from the profile given; the start completes with the start kind given and
stores a signature (R20, R37, R64, R79, R95, R115, R127, R132, R133, R137, R172). -/
def coldTables (s : State) (kind : StartKind) (profile : Profile) : State :=
  { s.discardWork with
    phase := .running
    pools := tabulate 8 fun n => Pool.ofProfile profile.pools[n]
    grants := Vector.replicate 64 { generation := 1, grant := none }
    ageList := []
    waits := Vector.replicate 32 { generation := 1, record := none }
    marks := Vector.replicate 8 false
    tokens := Vector.replicate 16 .free
    watches := Vector.replicate 4 0
    sessions := Vector.replicate 4 Session.initial
    window := AuditWindow.closed
    restartCount := 0
    startKind := kind
    signature := .matching
    profile := profile
    lastTaken := 3
    lineA := SagLine.initial
    lineB := SagLine.initial }

/-- The grant table after a good warm start: every ACTIVE grant is AUDIT (R38). -/
def grantsToAudit (s : State) : State :=
  { s with
    grants := tabulate 64 fun i =>
      { s.grantSlot i with grant := (s.grant? i).map fun g => { g with state := .audit } } }

/-- The tokens after a good warm start: every HELD token is AUDIT with its holder (R80). -/
def tokensToAudit (s : State) : State :=
  { s with
    tokens := tabulate 16 fun t =>
      match s.token t with
      | .held q => .audit q
      | .audit q => .audit q
      | .free => .free }

/-- Every wait record is discarded with its slot's generation advanced, every queue emptied, every mark cleared (R65). -/
def discardRecords (s : State) : State :=
  { s with
    waits := tabulate 32 fun i =>
      match s.record? i with
      | some _ => { generation := nextGeneration Config.lastWaitGeneration (s.waitSlot i).generation, record := none }
      | none => s.waitSlot i
    pools := tabulate 8 fun n => { s.pool n with queue := [] }
    marks := Vector.replicate 8 false }

/-- Every session from the port's holdings: RECOVERING with an AUDIT holding, else DETACHED (R116). -/
def sessionsFromHoldings (s : State) : State :=
  { s with
    sessions := tabulate 4 fun p =>
      { state := if s.holdsAudit p then .recovering else .detached, leasePeriod := 0, lapseCause := none } }

/-- The window opens if any AUDIT holding exists, with the audit time of the profile copy (R137). -/
def openWindow (s : State) : State :=
  { s with window := if s.anyAudit then { isOpen := true, remaining := s.profile.auditTime } else .closed }

/-- The changes of a warm start with a good signature, made together when it completes (R134). -/
def warmTables (s : State) : State :=
  let t := s.discardWork.grantsToAudit.tokensToAudit.discardRecords
  let t := ({ t with watches := Vector.replicate 4 0 } : State).sessionsFromHoldings.openWindow
  { t with
    phase := .running
    restartCount := if s.restartCount < Config.lastRestart then s.restartCount + 1 else Config.lastRestart
    startKind := .warm
    signature := .matching
    lastTaken := 3
    lineA := SagLine.initial
    lineB := SagLine.initial }

/-- The warm start completes: the signature is checked, and a bad one makes a cold start's tables without sampling PROG
(R132, R134, R135). -/
def completeWarmStart (s : State) (disturbed : Bool) : State :=
  let t := s.beginStart
  if s.signature = .matching ∧ disturbed = false then t.warmTables else t.coldTables .warmLost t.profileToLoad

/-- The cold start of applied power completes (R133, R150, R151, R153). -/
def completeColdStart (s : State) (prog : Level) : State :=
  let t := { s.beginStart with commissioning := prog == Level.high }
  t.coldTables .cold t.profileToLoad

/-- Power is removed: all activity stops, a seal is left as a warm reset would leave it, and the retained area is no
longer what the signature was computed over (R158, log entry 17). What becomes of a transaction is the model's choice (log
entry 17): one in progress is cut as by a reset, but one that shifts NOT_READY goes on shifting NOT_READY to its end. -/
def losePower (s : State) (cut : SealCut) : State :=
  { (s.abortSeal cut).cutTransactions with phase := .off, signature := .differing }

end State

/-- RSTN_LOW (R130). An RSTN already low does not go low. -/
def execRstnLow (s : State) : Result := if s.rstn = .low then .next s else .next s.rstnFalls

/-- WARM_RESET (R129). -/
def execWarmReset (cut : SealCut) (s : State) : Result :=
  if s.phase = .resetTaking then .next (s.takeReset cut) else .next s

/-- RSTN_HIGH (R130). -/
def execRstnHigh (s : State) : Result := .next s.rstnRises

/-- WARM_START (R134, R135). -/
def execWarmStart (disturbed : Bool) (s : State) : Result :=
  if s.phase = .warmStarting then .next (s.completeWarmStart disturbed) else .next s

/-- Power is applied: a cold start begins, or waits while RSTN is low (R130). The port controllers hold nothing of before,
and no work of before is waiting, from here on through the start (R127, R172). -/
def State.gainPower (s : State) : State :=
  { s.discardWork with phase := if s.rstn = .low then .coldWaiting else .coldStarting }

/-- POWER_ON (R130). -/
def execPowerOn (s : State) : Result := if s.phase = .off then .next s.gainPower else .next s

/-- COLD_START (R150). -/
def execColdStart (prog : Level) (s : State) : Result :=
  if s.phase = .coldStarting then .next (s.completeColdStart prog) else .next s

/-- POWER_INTERRUPTION (R158). -/
def execPowerInterruption (cut : SealCut) (s : State) : Result :=
  if s.phase = .off then .next s else .next (s.losePower cut)

end Sys2Proof.Machine
end

