-- ==== Sys2Proof/Machine/Supervisor.lean ====
section
/-! DEFINITION. Supervisor commands on pools, grants and the part: SCP, RVK, RSR (R13 to R17, R192, R193, R195). -/

namespace Sys2Proof.Machine

namespace State

/-- A capacity change of a pool: both figures are recorded, and the effective capacity before and after decides what
follows (R13 to R17). -/
def changeCapacity (s : State) (n : PoolNo) (nominal derated : Nat) : State :=
  let t := s.modPool n fun q => { q with nominal := nominal, derated := derated }
  if (s.pool n).effective < (t.pool n).effective then t.servicePass [t.rootOf n]
  else if (t.pool n).effective < (s.pool n).effective then
    match (t.pool n).derateState with
    | .normal => t
    | .derated => (t.shed n).detachBare.closeIfDone
  else t

/-- SCP's own checks and effect (R192). -/
def answerScp (s : State) (p : Port) (pool : Byte) (nominal derated : Word) : State :=
  let c := Command.scp pool nominal derated
  match firstFailure [((s.portProfile p).supervise, .noRight), (!s.profile.locked, .locked)] with
  | some status => s.refuse p c status
  | none =>
    match s.definedPool? pool with
    | none => s.refuse p c .badPool
    | some n =>
      if nominal.toNat < derated.toNat then s.refuse p c .badValue
      else (s.changeCapacity n nominal.toNat derated.toNat).replyWith p .ok []

/-- What an RVK tells: REVOKED to an owner that is not the requester, then R113 (R193). -/
def tellRevoked (s : State) (p : Port) (g : Grant) (handle : Nat) : State :=
  (if g.port = p then s else s.post g.port (.revoked handle .supervisor)).detachBare

/-- RVK's own checks and effect (R193). -/
def answerRvk (s : State) (p : Port) (handle : Word) : State :=
  let c := Command.rvk handle
  if !(s.portProfile p).supervise then s.refuse p c .noRight
  else
    match s.resolveHandle handle.toNat with
    | none => s.refuse p c .badHandle
    | some (i, g) => (s.freeAndServe i g fun t => t.tellRevoked p g handle.toNat).replyWith p .ok []

/-- RSR's own check and effect: an accepted one is never answered, and the core takes the warm reset at its end (R129,
R195). -/
def answerRsr (s : State) (p : Port) : State :=
  if !(s.portProfile p).supervise then s.refuse p .rsr .noRight else s.enterReset

end State

/-- SCP (R192). -/
def execScp (p : Port) (tag pool : Byte) (nominal derated : Word) (s : State) : Result :=
  coreRequest s p ⟨tag, .scp pool nominal derated⟩ fun t => t.answerScp p pool nominal derated

/-- RVK (R193). -/
def execRvk (p : Port) (tag : Byte) (handle : Word) (s : State) : Result :=
  coreRequest s p ⟨tag, .rvk handle⟩ fun t => t.answerRvk p handle

/-- RSR (R195). -/
def execRsr (p : Port) (tag : Byte) (s : State) : Result :=
  coreRequest s p ⟨tag, .rsr⟩ fun t => t.answerRsr p

end Sys2Proof.Machine
end

