-- ==== Sys2Proof/Machine/Timers.lean ====
section
/-! DEFINITION. The tick and the audit window: TICK, AUDIT_TIMER_EXPIRY, AUDIT_END (R58, R82, R95, R96, R105, R137,
R140). -/

namespace Sys2Proof.Machine

namespace State

/-! ## The tick -/

/-- Make a step due on this tick (log entry 6). -/
def makeDue (s : State) (d : Due) : State := { s with due := s.due ++ [d] }

/-- A running lease counter is lowered by 1; at 0 it has expired (R105). -/
def tickLease (s : State) (p : Port) : State :=
  match (s.port p).lease with
  | some (n + 1) =>
    let t := s.modPort p fun c => { c with lease := some n }
    if n = 0 then t.makeDue (.lease p) else t
  | _ => s

/-- A live record's remaining deadline is lowered by 1; at 0 it makes an expiry (R58). -/
def tickDeadline (s : State) (i : WaitNo) : State :=
  match s.record? i with
  | none => s
  | some r =>
    match r.deadline with
    | some (n + 1) =>
      let t := s.setWaitSlot i { s.waitSlot i with record := some { r with deadline := some n } }
      if n = 0 then t.makeDue (.deadline (s.ticketOf i)) else t
    | _ => s

/-- Whether a group has a DERATED pool (R96). -/
def groupDerated (s : State) (g : SagGroup) : Bool :=
  (List.finRange 8).any fun n =>
    (s.pool n).defined && (s.pool n).group == some g && (s.pool n).derateState == .derated

/-- A line at its first sample after a start: from its group's derate states and the level (R95, R96). -/
def firstSample (s : State) (g : SagGroup) (level : Level) : SagLine :=
  match s.groupDerated g, level with
  | true, .high => { state := .asserted, seen := level, sampled := true, timer := none }
  | true, .low => { state := .restoring, seen := level, sampled := true, timer := some (s.sagTimes g).restore }
  | false, .high => { state := .qualifying, seen := level, sampled := true, timer := some (s.sagTimes g).qualify }
  | false, .low => { state := .clear, seen := level, sampled := true, timer := none }

/-- The line change a sampled level makes (R82). -/
def lineChange (g : SagGroup) : Level → Due
  | .high => .lineAsserted g
  | .low => .lineDeasserted g

/-- The expiry of a line's timer: the restore timer's in RESTORING, else the qualify timer's (R82, R83). -/
def timerExpiry (g : SagGroup) : LineState → Due
  | .restoring => .restore g
  | .clear => .qualify g
  | .qualifying => .qualify g
  | .asserted => .qualify g

/-- A line is sampled: a change of level is a line change, and lowers no timer; at an equal level a running timer is
lowered by 1, and at 0 it has expired (R82). -/
def tickLine (level : Level) (s : State) (g : SagGroup) : State :=
  if (s.line g).sampled = false then s.setLine g (s.firstSample g level)
  else if (s.line g).seen ≠ level then (s.setLine g { s.line g with seen := level }).makeDue (lineChange g level)
  else
    match (s.line g).timer with
    | some (n + 1) =>
      let t := s.setLine g { s.line g with timer := some n }
      if n = 0 then t.makeDue (timerExpiry g (s.line g).state) else t
    | _ => s

/-- Both lines are sampled, unless the part runs UNCONFIGURED or is in commissioning state (R85). -/
def tickLines (s : State) (sagA sagB : Level) : State :=
  if s.unconfigured then s else tickLine sagB (tickLine sagA s .a) .b

/-- The remaining audit time is lowered by 1 while the window is open; at 0 it makes the audit-end event (R137). -/
def tickWindow (s : State) : State :=
  if s.window.isOpen then
    match s.window.remaining with
    | n + 1 =>
      let t := { s with window := { s.window with remaining := n } }
      if n = 0 then t.makeDue .audit else t
    | 0 => s
  else s

/-- A tick (R152): what an earlier tick left due has come about first (log entry 6). -/
def tickAll (s : State) (sagA sagB : Level) : State :=
  let t := (List.finRange 4).foldl tickLease s.settle
  let t := (List.finRange 32).foldl tickDeadline t
  (t.tickLines sagA sagB).tickWindow

/-! ## The end of the audit window -/

/-- Whether a slot holds an AUDIT grant. -/
def isAudit (s : State) (i : GrantNo) : Bool :=
  match s.grant? i with
  | some g => g.state == .audit
  | none => false

/-- An AUDIT grant is reclaimed, with REVOKED cause AUDIT_END to an ATTACHED owner (R140). -/
def reclaimGrant (s : State) (i : GrantNo) : State :=
  match s.grant? i with
  | none => s
  | some g =>
    if (s.session g.port).state = .attached then (s.freeGrant i).post g.port (.revoked (s.handleOf i) .auditEnd)
    else s.freeGrant i

/-- A port still RECOVERING becomes DETACHED (R140). -/
def endRecovery (s : State) (p : Port) : State :=
  if (s.session p).state = .recovering then s.setSession p { s.session p with state := .detached } else s

/-- The audit-end event taken while the window is open (R140). -/
def reclaimAudit (s : State) : State :=
  let grants := s.ageList.filter s.isAudit
  let families := s.familiesOfGrants grants ++ if grants.isEmpty then [] else s.markedFamilies
  let t := grants.foldl reclaimGrant s
  let t := t.freeTokens t.allAuditMask
  let t := { t with window := .closed }
  ((List.finRange 4).foldl endRecovery t).servicePass families

/-- The core takes the audit-end event; with the window closed it does nothing (R139, R140). -/
def takeAuditEnd (s : State) : Option State :=
  if s.auditEndMade then
    let t := { s with auditEndMade := false }
    some (if t.window.isOpen then t.reclaimAudit else t)
  else none

end State

/-- TICK (R152). No timer counts while the part is in reset or starting (R130). What was disturbed in the image slots while
the part ran stands in their contents from here on (R145, log entry 25). -/
def execTick (lines : SagLevels) (disturbed : List Disturbance) (s : State) : Result :=
  if s.phase = .running then .next (disturbed.foldl State.disturb (s.tickAll lines.a lines.b)) else .next s

/-- AUDIT_TIMER_EXPIRY (R137). -/
def execAuditTimerExpiry (s : State) : Result := dueStep s .audit

/-- AUDIT_END (R140). -/
def execAuditEnd (s : State) : Result := coreEvent s fun t => t.takeAuditEnd

end Sys2Proof.Machine
end

