-- ==== Sys2Proof/Machine/Tokens.lean ====
section
/-! DEFINITION. Interlock tokens: CLM, DRP, CNT, UWT (R67 to R77, R188 to R191). -/

namespace Sys2Proof.Machine

namespace State

/-- Whether a token is a conflict for a requester: HELD or AUDIT by another port, or AUDIT by itself (chapter 4.2, R69). -/
def isConflict (s : State) (p : Port) (t : TokenNo) : Bool :=
  match s.token t with
  | .free => false
  | .held q => q != p
  | .audit _ => true

/-- The tokens of a mask that are a conflict for a requester (R69). -/
def conflictMask (s : State) (p : Port) (mask : Word) : Word := mask &&& maskOf fun t => s.isConflict p t

/-- The watch set after a claim: the conflicts join it when the watch flag is set, and every token now HELD by the
requester leaves it (R71). -/
def watchAfterClaim (s : State) (p : Port) (conflicts claimed : Word) (watchFlag : Bool) : State :=
  s.setWatch p ((s.watch p ||| (if watchFlag then conflicts else 0)) &&& ~~~claimed)

/-- The claim of CLM once its checks pass: in mode ALL the whole set or nothing, in mode ANY every token it can (R69,
R70, R71). -/
def claim (s : State) (p : Port) (mask : Word) (all watchFlag : Bool) : State :=
  let conflicts := s.conflictMask p mask
  let claimed := if all && conflicts != 0 then 0 else mask &&& s.freeMask
  let status := if conflicts = 0 then Status.ok else if all then .conflict else .partly
  ((s.setTokens claimed (.held p)).watchAfterClaim p conflicts claimed watchFlag).replyWith p status
    (maskField claimed ++ maskField conflicts)

/-- The checks that CLM, DRP, CNT and UWT share: the INTERLOCK right, then the mask (R67). -/
def tokenChecks (s : State) (p : Port) (mask : Word) : List (Bool × Status) :=
  [((s.portProfile p).interlock, .noRight), (s.maskInRange mask, .badToken)]

/-- CLM's own checks and effect (R188). -/
def answerClm (s : State) (p : Port) (mask : Word) (mode watch : Byte) : State :=
  match firstFailure
      (s.tokenChecks p mask ++ [(decide (mode.toNat ≤ 1), Status.badValue), (decide (watch.toNat ≤ 1), Status.badValue)]) with
  | some status => s.refuse p (.clm mask mode watch) status
  | none => s.claim p mask (mode == 0) (watch == 1)

/-- DRP's own checks and effect (R77, R189). -/
def answerDrp (s : State) (p : Port) (mask : Word) : State :=
  match firstFailure (s.tokenChecks p mask) with
  | some status => s.refuse p (.drp mask) status
  | none =>
    let own := mask &&& (s.heldMask p ||| s.auditMask p)
    let notHeld := mask &&& ~~~own
    (s.freeTokens own).closeIfDone.replyWith p (if notHeld = 0 then .ok else .partly) (maskField notHeld)

/-- CNT's own checks and effect (R75, R190). -/
def answerCnt (s : State) (p : Port) (mask : Word) : State :=
  match firstFailure (s.tokenChecks p mask) with
  | some status => s.refuse p (.cnt mask) status
  | none =>
    let confirmed := mask &&& s.auditMask p
    let notConfirmed := mask &&& ~~~confirmed
    ((s.setTokens confirmed (.held p)).setWatch p (s.watch p &&& ~~~confirmed)).closeIfDone.replyWith p
      (if notConfirmed = 0 then .ok else .partly) (maskField notConfirmed)

/-- UWT's own checks and effect (R76, R191). For a mask of 0 the answer carries the whole watch set, by R76, where R67
says that every returned mask is 0: the spec leaves open which holds for a watch set that is not empty, and following
R76 is the model's choice (log entry 30). -/
def answerUwt (s : State) (p : Port) (mask : Word) : State :=
  match firstFailure (s.tokenChecks p mask) with
  | some status => s.refuse p (.uwt mask) status
  | none => (s.setWatch p (s.watch p &&& ~~~mask)).replyWith p .ok (maskField (s.watch p &&& ~~~mask))

end State

/-- CLM (R188). -/
def execClm (p : Port) (tag : Byte) (mask : Word) (mode watch : Byte) (s : State) : Result :=
  coreRequest s p ⟨tag, .clm mask mode watch⟩ fun t => t.answerClm p mask mode watch

/-- DRP (R189). -/
def execDrp (p : Port) (tag : Byte) (mask : Word) (s : State) : Result :=
  coreRequest s p ⟨tag, .drp mask⟩ fun t => t.answerDrp p mask

/-- CNT (R190). -/
def execCnt (p : Port) (tag : Byte) (mask : Word) (s : State) : Result :=
  coreRequest s p ⟨tag, .cnt mask⟩ fun t => t.answerCnt p mask

/-- UWT (R191). -/
def execUwt (p : Port) (tag : Byte) (mask : Word) (s : State) : Result :=
  coreRequest s p ⟨tag, .uwt mask⟩ fun t => t.answerUwt p mask

end Sys2Proof.Machine
end

