-- ==== Sys2Proof/Machine/Dispatch.lean ====
section
/-! DEFINITION. One arm for each row of the table, each one call of its meaning. -/

namespace Sys2Proof.Machine

def exec (i : Instr) (s : State) : Host.Outcome State Fault Refusal :=
  match i with
  | .nop port mosi => Sys2Proof.Machine.execNop port mosi s
  | .rpt port mosi => Sys2Proof.Machine.execRpt port mosi s
  | .ntf port mosi => Sys2Proof.Machine.execNtf port mosi s
  | .fill port mosi => Sys2Proof.Machine.execFill port mosi s
  | .csnFall port => Sys2Proof.Machine.execCsnFall port s
  | .requestTaken port mosi => Sys2Proof.Machine.execRequestTaken port mosi s
  | .frameError port mosi => Sys2Proof.Machine.execFrameError port mosi s
  | .unknown port mosi => Sys2Proof.Machine.execUnknown port mosi s
  | .pending port mosi => Sys2Proof.Machine.execPending port mosi s
  | .notReady port mosi before => Sys2Proof.Machine.execNotReady port mosi before s
  | .replyPlaced port => Sys2Proof.Machine.execReplyPlaced port s
  | .att port tag lease => Sys2Proof.Machine.execAtt port tag lease s
  | .det port tag => Sys2Proof.Machine.execDet port tag s
  | .rsv port tag pool floor max wait => Sys2Proof.Machine.execRsv port tag pool floor max wait s
  | .adj port tag handle units => Sys2Proof.Machine.execAdj port tag handle units s
  | .rel port tag handle => Sys2Proof.Machine.execRel port tag handle s
  | .can port tag ticket => Sys2Proof.Machine.execCan port tag ticket s
  | .cnf port tag handle => Sys2Proof.Machine.execCnf port tag handle s
  | .qgr port tag handle => Sys2Proof.Machine.execQgr port tag handle s
  | .qpl port tag pool => Sys2Proof.Machine.execQpl port tag pool s
  | .qpt port tag => Sys2Proof.Machine.execQpt port tag s
  | .qdv port tag => Sys2Proof.Machine.execQdv port tag s
  | .clm port tag mask mode watch => Sys2Proof.Machine.execClm port tag mask mode watch s
  | .drp port tag mask => Sys2Proof.Machine.execDrp port tag mask s
  | .cnt port tag mask => Sys2Proof.Machine.execCnt port tag mask s
  | .uwt port tag mask => Sys2Proof.Machine.execUwt port tag mask s
  | .scp port tag pool nominal derated => Sys2Proof.Machine.execScp port tag pool nominal derated s
  | .rvk port tag handle => Sys2Proof.Machine.execRvk port tag handle s
  | .evc port tag target => Sys2Proof.Machine.execEvc port tag target s
  | .rsr port tag => Sys2Proof.Machine.execRsr port tag s
  | .srd port tag slot block => Sys2Proof.Machine.execSrd port tag slot block s
  | .stg port tag block data => Sys2Proof.Machine.execStg port tag block data s
  | .chk port tag => Sys2Proof.Machine.execChk port tag s
  | .sel port tag => Sys2Proof.Machine.execSel port tag s
  | .sealEnd result => Sys2Proof.Machine.execSealEnd result s
  | .noticePost port => Sys2Proof.Machine.execNoticePost port s
  | .tick lines disturbed => Sys2Proof.Machine.execTick lines disturbed s
  | .leaseExpiry port => Sys2Proof.Machine.execLeaseExpiry port s
  | .lapse port => Sys2Proof.Machine.execLapse port s
  | .deadlineExpiry ticket => Sys2Proof.Machine.execDeadlineExpiry ticket s
  | .expiryEvent ticket => Sys2Proof.Machine.execExpiryEvent ticket s
  | .lineAsserted line => Sys2Proof.Machine.execLineAsserted line s
  | .lineDeasserted line => Sys2Proof.Machine.execLineDeasserted line s
  | .qualifyTimerExpiry line => Sys2Proof.Machine.execQualifyTimerExpiry line s
  | .restoreTimerExpiry line => Sys2Proof.Machine.execRestoreTimerExpiry line s
  | .derateEvent group => Sys2Proof.Machine.execDerateEvent group s
  | .restoreEvent group => Sys2Proof.Machine.execRestoreEvent group s
  | .auditTimerExpiry => Sys2Proof.Machine.execAuditTimerExpiry s
  | .auditEnd => Sys2Proof.Machine.execAuditEnd s
  | .rstnLow => Sys2Proof.Machine.execRstnLow s
  | .warmReset cut => Sys2Proof.Machine.execWarmReset cut s
  | .rstnHigh => Sys2Proof.Machine.execRstnHigh s
  | .warmStart disturbed => Sys2Proof.Machine.execWarmStart disturbed s
  | .powerOn => Sys2Proof.Machine.execPowerOn s
  | .coldStart prog => Sys2Proof.Machine.execColdStart prog s
  | .powerInterruption cut => Sys2Proof.Machine.execPowerInterruption cut s

end Sys2Proof.Machine
end

