-- ==== Sys2Proof/WellFormed.lean ====
section
/-! DEFINITION. The checks on a step's operands that do not look at the state: the bytes of a transaction are those of
the row that names them, and numbers lie in the ranges the spec gives them. -/

namespace Sys2Proof

/-- The number of the last write of a seal: 253 image bytes, 2 of CRC-16 and the mark, counted from 0 (R157). -/
def lastSealWrite : Nat := 255

/-- A command's operands have the sizes their frame gives them (R173): STG carries 16 data bytes. -/
def Command.wellFormed : Command → Bool
  | .stg _ data => data.length == 16
  | _ => true

/-- A cut seal made at most the 256 writes of R157. -/
def SealCut.wellFormed (c : SealCut) : Bool := c.writes ≤ lastSealWrite + 1

/-- A read-back that differs is that of one of the 256 writes of R157; a byte found otherwise is one of the slot's 256. -/
def SealResult.wellFormed : SealResult → Bool
  | .whole => true
  | .readBackDiffers write _ => write ≤ lastSealWrite
  | .foundOtherwise turned => turned.all fun c => c.1 ≤ 255

/-- A step's operands are those of its row. -/
def Instr.wellFormed : Instr → Bool
  | .nop _ mosi => match examine mosi with | .nop _ => true | _ => false
  | .rpt _ mosi => match examine mosi with | .rpt _ => true | _ => false
  | .ntf _ mosi => match examine mosi with | .ntf _ => true | _ => false
  | .fill _ mosi => match examine mosi with | .fill => true | .noByte => true | _ => false
  | .csnFall _ => true
  | .requestTaken _ mosi => match examine mosi with | .request _ => true | _ => false
  | .frameError _ mosi => match examine mosi with | .frameError _ => true | _ => false
  | .unknown _ mosi => match examine mosi with | .unknown _ => true | _ => false
  | .pending _ _ => true
  | .notReady _ mosi before => before ≤ mosi.length
  | .replyPlaced _ => true
  | .att _ _ _ => true
  | .det _ _ => true
  | .rsv _ _ _ _ _ _ => true
  | .adj _ _ _ _ => true
  | .rel _ _ _ => true
  | .can _ _ _ => true
  | .cnf _ _ _ => true
  | .qgr _ _ _ => true
  | .qpl _ _ _ => true
  | .qpt _ _ => true
  | .qdv _ _ => true
  | .clm _ _ _ _ _ => true
  | .drp _ _ _ => true
  | .cnt _ _ _ => true
  | .uwt _ _ _ => true
  | .scp _ _ _ _ _ => true
  | .rvk _ _ _ => true
  | .evc _ _ _ => true
  | .rsr _ _ => true
  | .srd _ _ _ _ => true
  | .stg _ _ block data => (Command.stg block data).wellFormed
  | .chk _ _ => true
  | .sel _ _ => true
  | .sealEnd result => result.wellFormed
  | .noticePost _ => true
  | .tick _ _ => true
  | .leaseExpiry _ => true
  | .lapse _ => true
  | .deadlineExpiry _ => true
  | .expiryEvent _ => true
  | .lineAsserted _ => true
  | .lineDeasserted _ => true
  | .qualifyTimerExpiry _ => true
  | .restoreTimerExpiry _ => true
  | .derateEvent _ => true
  | .restoreEvent _ => true
  | .auditTimerExpiry => true
  | .auditEnd => true
  | .rstnLow => true
  | .warmReset cut => cut.wellFormed
  | .rstnHigh => true
  | .warmStart _ => true
  | .powerOn => true
  | .coldStart _ => true
  | .powerInterruption cut => cut.wellFormed

end Sys2Proof
end

