-- ==== Sys2Proof/Safety.lean ====
section
/-! DEFINITION. The laws of the part (L1 to L12) as predicates of the state, and the words the statements use. -/

namespace Sys2Proof.Machine

/-! ## Words of the statements -/

/-- The step by which the core takes a request of a port. -/
def stepOf (p : Port) (r : Request) : Instr :=
  match r.command with
  | .att lease => .att p r.tag lease
  | .det => .det p r.tag
  | .rsv pool floor max wait => .rsv p r.tag pool floor max wait
  | .adj handle units => .adj p r.tag handle units
  | .rel handle => .rel p r.tag handle
  | .can ticket => .can p r.tag ticket
  | .cnf handle => .cnf p r.tag handle
  | .qgr handle => .qgr p r.tag handle
  | .qpl pool => .qpl p r.tag pool
  | .qpt => .qpt p r.tag
  | .qdv => .qdv p r.tag
  | .clm mask mode watch => .clm p r.tag mask mode watch
  | .drp mask => .drp p r.tag mask
  | .cnt mask => .cnt p r.tag mask
  | .uwt mask => .uwt p r.tag mask
  | .scp pool nominal derated => .scp p r.tag pool nominal derated
  | .rvk handle => .rvk p r.tag handle
  | .evc target => .evc p r.tag target
  | .rsr => .rsr p r.tag
  | .srd slot block => .srd p r.tag slot block
  | .stg block data => .stg p r.tag block data
  | .chk => .chk p r.tag
  | .sel => .sel p r.tag

/-- In state `s` the core takes the request `r` of port `p`, and `t` is the state at that moment: what was due has come
about (log entry 6), the item before is at its end (log entry 5), and the request is off the port's list (R107, R171). -/
def Taken (s t : State) (p : Port) (r : Request) : Prop := s.ready.takes p r = true ∧ t = s.ready.took p

/-- The requester passes the session check of R102 outside commissioning state. -/
abbrev Attached (t : State) (p : Port) : Prop := t.commissioning = false ∧ (t.session p).state = .attached

/-- In state `s` the part runs, and `t` is the state in which the core takes an event: what was due has come about (log
entry 6) and the item before is at its end (log entry 5; R119, R129). -/
def Free (s t : State) : Prop := s.phase = .running ∧ t = s.ready

/-- CSN rises on a transaction of port `p` whose frame is examined, and `t` is the state in which it is: the transaction is
over, and a reply of the slot whose status byte was shifted is consumed (R161, R162). What is due stays due: a due expiry
and the frame may come in either order (R110, log entry 6). -/
def Rises (s t : State) (p : Port) (mosi : List Byte) : Prop :=
  ∃ x ∈ (s.port p).transaction, (x.kind = .fromSlot ∨ x.kind = .noReply) ∧
    t = s.modPort p fun c =>
      { c with
        transaction := none
        miso := x.reply.shifted mosi.length
        reply := if x.kind = .fromSlot ∧ mosi ≠ [] then none else c.reply
        lastReply := if x.kind = .fromSlot ∧ mosi ≠ [] then some x.reply else c.lastReply }

/-- A taken frame's reload of the lease counter of port `p`: a running counter starts afresh with the lease period (R106). -/
def reloaded (t : State) (p : Port) : Option Nat := (t.port p).lease.map fun _ => (t.session p).leasePeriod

/-- What is due once a taken frame of port `p` has reloaded its counter: an expiry of that counter does not happen (R110,
log entry 6). -/
def dueAfterFrame (t : State) (p : Port) : List Due := t.due.filter (· ≠ .lease p)

/-- A reply the port controller of `p` places in state `t`, its flags byte read there (R164, R165). -/
def replyIn (t : State) (p : Port) (status : Status) (tag : Byte) (payload : List Byte) : Reply :=
  { status := status, tag := tag, flags := t.flags p, payload := payload }

/-- The same state with the core's answer made to the request of `p` (R167, R175). -/
def answered (t : State) (p : Port) (status : Status) (payload : List Byte) : State :=
  { t with answering := some { port := p, status := status, payload := payload } }

/-- The same state with the request of `p` refused: the status, and `k` payload bytes of 0 (R164, R175). -/
def refusedWith (t : State) (p : Port) (status : Status) (k : Nat) : State := answered t p status (List.replicate k 0)

/-- Whether a mask names a token numbered N or above (R67). -/
abbrev MaskTooHigh (t : State) (mask : Word) : Prop := ∃ n, names mask n ∧ t.profile.tokenCount ≤ n.val

/-- The audit window of `t` after work that left `u`: closed when it was open and `u` has no AUDIT holding (R139). -/
def windowAfter (t u : State) : AuditWindow :=
  if t.window.isOpen && !u.anyAudit then { isOpen := false, remaining := 0 } else t.window

/-- From `s` to `u` every transaction in progress is cut, but for one that shifts NOT_READY (R168; through a later reset, log
entry 34). -/
def CutsTransactions (s u : State) : Prop :=
  ∀ q, u.port q = { s.port q with
    transaction := (s.port q).transaction.map fun x => if x.kind = .notReady then x else { x with kind := .cut } }

/-- From `s` to `u` a seal in progress is aborted after the writes of `cut` (R157, R158; log entry 11): in the order of R157,
the bytes before that write are programmed, the byte of that write has some of its bits turned, and no later byte is
touched, the seal mark included; the slot is DAMAGED if a value other than 0xFF has been written (R157; of a write cut before its
end, log entry 12), whatever the memory held before, and keeps its state otherwise; every other slot is as it was. That the cut may lie past a disturbed byte is the model's choice (log entry 33). -/
def AbortsSeal (s u : State) (cut : SealCut) : Prop :=
  u.sealing = none ∧ (s.sealing = none → u.slots = s.slots) ∧
    ∀ w ∈ s.sealing,
      let written : Nat → Byte := fun k =>
        if k < cut.writes then sealByte w.image k
        else if k = cut.writes then sealByte w.image k ||| cut.unprogrammed
        else 0xFF
      (∀ i, i ≠ w.slot → u.imageSlot i = s.imageSlot i) ∧
      ((∃ k, k < 256 ∧ written k ≠ 0xFF) → (u.imageSlot w.slot).state = .damaged) ∧
      ((∀ k, k < 256 → written k = 0xFF) → (u.imageSlot w.slot).state = (s.imageSlot w.slot).state) ∧
      ∀ k, k < 256 → (u.imageSlot w.slot).contents.read (sealAddress k) =
        (s.imageSlot w.slot).contents.read (sealAddress k) &&& written k

/-- Every port controller of `u` holds its values after a start or a warm reset (R128, R136, R172), the transactions in
progress and the record of MISO as in `s`: no reply, copy, request, work handed on, notice or MISSED flag, and the counter
stopped. -/
def FreshPorts (s u : State) : Prop :=
  ∀ q, u.port q =
    { reply := none, lastReply := none, processing := none, handedOn := [], lease := none, notices := [], missed := false
      transaction := (s.port q).transaction, miso := (s.port q).miso }

/-- No work is waiting to be taken (R129). -/
def NoWorkWaiting (u : State) : Prop :=
  u.answering = none ∧ u.transit = [] ∧ u.expiryEvents = [] ∧ u.sagEvents = [] ∧ u.auditEndMade = false ∧ u.due = []

/-- In `u` every slot of the store has the contents it has in `s` and the state its contents give; the staging buffer reads
0xFF throughout (R145, R155). -/
def StoreAtStart (s u : State) : Prop :=
  (∀ i, (u.imageSlot i).contents = (s.imageSlot i).contents ∧
    (u.imageSlot i).state = classify (s.imageSlot i).contents) ∧ u.staging = [] ∧ u.sealing = none

/-- The profile a start loads from the slots of `s` (R150, R151): that of the highest-numbered slot whose contents are
SEALED, or the UNCONFIGURED copy if there is none. -/
def LoadsFrom (s : State) (x : Profile) : Prop :=
  ((∀ i, classify (s.imageSlot i).contents ≠ .sealed) ∧ x = Profile.unconfigured) ∨
    ∃ i, classify (s.imageSlot i).contents = .sealed ∧
      (∀ j, i < j → classify (s.imageSlot j).contents ≠ .sealed) ∧ x = loadProfile (s.imageSlot i).contents

/-- Every table of `u` at its cold-start value, from the profile `x` (R20, R37, R64, R79, R95, R115, R133, R137, R172). -/
def ColdTables (u : State) (x : Profile) : Prop :=
  u.profile = x ∧
    (∀ n, u.pool n =
      { defined := x.pools[n].defined, parent := x.pools[n].parent, nominal := x.pools[n].nominal
        derated := x.pools[n].derated, group := x.pools[n].group, policy := x.pools[n].policy
        derateState := .normal, charged := 0, queue := [] }) ∧
    (∀ i, u.grantSlot i = { generation := 1, grant := none }) ∧ u.ageList = [] ∧
    (∀ i, u.waitSlot i = { generation := 1, record := none }) ∧ (∀ n, u.mark n = false) ∧
    (∀ n, u.token n = .free) ∧ (∀ p, u.watch p = 0) ∧
    (∀ p, u.session p = { state := .detached, leasePeriod := 0, lapseCause := none }) ∧
    u.window = { isOpen := false, remaining := 0 } ∧ u.restartCount = 0 ∧ u.signature = .matching ∧ u.lastTaken = 3 ∧
    (∀ g, u.line g = { state := .clear, seen := .low, sampled := false, timer := none }) ∧ u.phase = .running

/-- What passing validation gives of a profile (R149): law L6, every derated capacity within its nominal one, and every
number in its range. -/
def ProfileInRange (x : Profile) : Prop :=
  1 ≤ x.version ∧ 4000 ≤ x.clock ∧ x.clock ≤ 16000 ∧
    (∀ n : PoolNo, x.pools[n].derated ≤ x.pools[n].nominal ∧
      ∀ r ∈ x.pools[n].parent, x.pools[n].defined ∧ x.pools[r].defined ∧ x.pools[r].parent = none ∧ n ≠ r) ∧
    (∀ p : Port, 20 ≤ x.ports[p].leaseMin ∧ x.ports[p].leaseMin ≤ x.ports[p].leaseMax ∧ x.ports[p].leaseMax ≤ 60000) ∧
    x.tokenCount ≤ 16 ∧ 1 ≤ x.sagA.qualify ∧ x.sagA.qualify ≤ 1000 ∧ 10 ≤ x.sagA.restore ∧ x.sagA.restore ≤ 60000 ∧
    1 ≤ x.sagB.qualify ∧ x.sagB.qualify ≤ 1000 ∧ 10 ≤ x.sagB.restore ∧ x.sagB.restore ≤ 60000 ∧
    100 ≤ x.auditTime ∧ x.auditTime ≤ 10000

/-- The figures of pool `n` in the image `m` are `x` (R146, R147): those at the pool's offsets if its defined byte is 0x01,
and those of an undefined pool if it is 0x00. -/
def LoadsPool (m : Memory) (n : PoolNo) (x : PoolProfile) : Prop :=
  (m.read (4 + 8 * n.val) = 0x00 →
    x = { defined := false, parent := none, nominal := 0, derated := 0, group := none, policy := .ordered }) ∧
  (m.read (4 + 8 * n.val) = 0x01 →
    x.defined = true ∧ (x.parent = none ↔ m.read (5 + 8 * n.val) = 0xFF) ∧
    (∀ r ∈ x.parent, r.val = (m.read (5 + 8 * n.val)).toNat) ∧
    x.nominal = imageWord m (6 + 8 * n.val) ∧ x.derated = imageWord m (8 + 8 * n.val) ∧
    (x.group = none ↔ m.read (10 + 8 * n.val) = 0x00) ∧ (x.group = some .a ↔ m.read (10 + 8 * n.val) = 0x01) ∧
    (x.group = some .b ↔ m.read (10 + 8 * n.val) = 0x02) ∧
    (x.policy = .ordered ↔ m.read (11 + 8 * n.val) = 0x00) ∧ (x.policy = .fit ↔ m.read (11 + 8 * n.val) = 0x01))

/-- The record of port `p` in the image `m` is `x` (R146, R147). -/
def LoadsPort (m : Memory) (p : Port) (x : PortProfile) : Prop :=
  x.priority.val = (m.read (68 + 22 * p.val)).toNat ∧
    x.reserve = (m.read (69 + 22 * p.val)).getLsbD 0 ∧ x.interlock = (m.read (69 + 22 * p.val)).getLsbD 1 ∧
    x.supervise = (m.read (69 + 22 * p.val)).getLsbD 2 ∧ x.leaseMin = imageWord m (70 + 22 * p.val) ∧
    x.leaseMax = imageWord m (72 + 22 * p.val) ∧
    ∀ k : PoolNo, x.quotas[k] = imageWord m (74 + 22 * p.val + 2 * k.val)

/-- The fields of the image `m`, at their offsets, are those of the profile copy `x` (R146, R147). -/
def LoadsImage (m : Memory) (x : Profile) : Prop :=
  x.version = imageWord m 0 ∧ x.clock = imageWord m 2 ∧ (∀ n : PoolNo, LoadsPool m n x.pools[n]) ∧
    (∀ p : Port, LoadsPort m p x.ports[p]) ∧ x.tokenCount = (m.read 156).toNat ∧
    x.sagA.qualify = imageWord m 157 ∧ x.sagA.restore = imageWord m 159 ∧ x.sagB.qualify = imageWord m 161 ∧
    x.sagB.restore = imageWord m 163 ∧ x.auditTime = imageWord m 165 ∧ (x.locked = true ↔ m.read 167 = 0x01) ∧
    ∀ i : Fin 16, x.siteLabel[i] = m.read (168 + i.val)

/-- A fault in the record of pool `n` (R149, codes 0x03 to 0x0A): all but the first are looked for in a defined pool alone. -/
def PoolFault (m : Memory) (n : PoolNo) (code offset : Nat) : Prop :=
  (code = 0x03 ∧ offset = 4 + 8 * n.val ∧ m.read (4 + 8 * n.val) ≠ 0x00 ∧ m.read (4 + 8 * n.val) ≠ 0x01) ∨
    (m.read (4 + 8 * n.val) = 0x01 ∧
      ((code = 0x04 ∧ offset = 5 + 8 * n.val ∧ m.read (5 + 8 * n.val) ≠ 0xFF ∧ 7 < (m.read (5 + 8 * n.val)).toNat) ∨
      (code = 0x05 ∧ offset = 5 + 8 * n.val ∧ (m.read (5 + 8 * n.val)).toNat = n.val) ∨
      (∃ r : PoolNo, (m.read (5 + 8 * n.val)).toNat = r.val ∧
        ((code = 0x06 ∧ offset = 5 + 8 * n.val ∧ m.read (4 + 8 * r.val) ≠ 0x01) ∨
          (code = 0x07 ∧ offset = 5 + 8 * n.val ∧ m.read (5 + 8 * r.val) ≠ 0xFF))) ∨
      (code = 0x08 ∧ offset = 8 + 8 * n.val ∧ imageWord m (6 + 8 * n.val) < imageWord m (8 + 8 * n.val)) ∨
      (code = 0x09 ∧ offset = 10 + 8 * n.val ∧ 2 < (m.read (10 + 8 * n.val)).toNat) ∨
      (code = 0x0A ∧ offset = 11 + 8 * n.val ∧ 1 < (m.read (11 + 8 * n.val)).toNat)))

/-- A fault in the record of port `p` (R149, codes 0x0B to 0x0F). -/
def PortFault (m : Memory) (p : Port) (code offset : Nat) : Prop :=
  (code = 0x0B ∧ offset = 68 + 22 * p.val ∧ 3 < (m.read (68 + 22 * p.val)).toNat) ∨
    (code = 0x0C ∧ offset = 69 + 22 * p.val ∧ m.read (69 + 22 * p.val) &&& 0xF8 ≠ 0) ∨
    (code = 0x0D ∧ offset = 70 + 22 * p.val ∧ imageWord m (70 + 22 * p.val) < 20) ∨
    (code = 0x0E ∧ offset = 72 + 22 * p.val ∧ 60000 < imageWord m (72 + 22 * p.val)) ∨
    (code = 0x0F ∧ offset = 72 + 22 * p.val ∧ imageWord m (72 + 22 * p.val) < imageWord m (70 + 22 * p.val))

/-- Validation of `m` finds this fault: the conditions of R149's table, by detail code, each with the offset it reports. -/
def ImageFault (m : Memory) (code offset : Nat) : Prop :=
  (code = 0x01 ∧ offset = 0 ∧ imageWord m 0 = 0) ∨
    (code = 0x02 ∧ offset = 2 ∧ ¬ (4000 ≤ imageWord m 2 ∧ imageWord m 2 ≤ 16000)) ∨
    (∃ n : PoolNo, PoolFault m n code offset) ∨ (∃ p : Port, PortFault m p code offset) ∨
    (code = 0x10 ∧ offset = 156 ∧ 16 < (m.read 156).toNat) ∨
    (code = 0x11 ∧ (offset = 157 ∨ offset = 161) ∧ ¬ (1 ≤ imageWord m offset ∧ imageWord m offset ≤ 1000)) ∨
    (code = 0x12 ∧ (offset = 159 ∨ offset = 163) ∧ ¬ (10 ≤ imageWord m offset ∧ imageWord m offset ≤ 60000)) ∨
    (code = 0x13 ∧ offset = 165 ∧ ¬ (100 ≤ imageWord m 165 ∧ imageWord m 165 ≤ 10000)) ∨
    (code = 0x14 ∧ offset = 167 ∧ m.read 167 ≠ 0x00 ∧ m.read 167 ≠ 0x01) ∨
    (code = 0x15 ∧ 184 ≤ offset ∧ offset < 253 ∧ m.read offset ≠ 0xFF)

/-- The first fault in the order of the offsets, and at one offset in the order of R149's table. -/
def FirstFault (m : Memory) (code offset : Nat) : Prop :=
  ImageFault m code offset ∧ ∀ c o, ImageFault m c o → offset < o ∨ (offset = o ∧ code ≤ c)

/-- The handle names the live grant `g` of slot `i`: the slot's generation times 64 plus the slot (R23, R24). -/
abbrev NamesGrant (t : State) (handle : Word) (i : GrantNo) (g : Grant) : Prop :=
  t.grant? i = some g ∧ 1 ≤ (t.grantSlot i).generation ∧ handle.toNat = (t.grantSlot i).generation * 64 + i.val

/-- The ticket names the live record `r` of wait slot `w`: the slot's generation times 32 plus the slot (R40, R41). -/
abbrev NamesRecord (t : State) (ticket : Word) (w : WaitNo) (r : WaitRecord) : Prop :=
  t.record? w = some r ∧ 1 ≤ (t.waitSlot w).generation ∧ ticket.toNat = (t.waitSlot w).generation * 32 + w.val

/-- The ahead rule: in an ORDERED pool no record of the queue has a priority equal to or higher than the port's (R10). -/
abbrev AheadRule (t : State) (p : Port) (n : PoolNo) : Prop :=
  (t.pool n).policy = .ordered → ∀ w ∈ (t.pool n).queue, ∀ r ∈ t.record? w, (t.portProfile p).priority < r.priority

/-- An RSV of an ATTACHED port for the pool `n` passes every check of R178. -/
abbrev ReserveChecksPass (t : State) (p : Port) (pool : Byte) (floor max : Word) (n : PoolNo) : Prop :=
  (t.portProfile p).reserve ∧ n.val = pool.toNat ∧ (t.pool n).defined ∧ t.quota p n ≠ 0 ∧ 1 ≤ floor.toNat ∧
    floor.toNat ≤ max.toNat ∧ floor.toNat ≤ t.quota p n - t.held p n ∧ floor.toNat ≤ (t.pool n).nominal ∧
    ∀ r ∈ (t.pool n).parent, floor.toNat ≤ (t.pool r).nominal

/-- From `t` to `u` the grant of slot `i` is freed, the slot's generation advanced by 1 and wrapped from 1023 to 1, and every
other live grant is as it was (R32). -/
def FreedThenServed (t u : State) (i : GrantNo) : Prop :=
  (u.grantSlot i).generation = (if (t.grantSlot i).generation = 1023 then 1 else (t.grantSlot i).generation + 1) ∧
    ∀ j, j ≠ i → ∀ g ∈ t.grant? j, u.grant? j = some g

/-- From `t` to `u` the charged sums of pool `n` and of its root move by `f`, and nothing else of any pool (R5). -/
def ChargeMoves (t u : State) (n : PoolNo) (f : Nat → Nat) : Prop :=
  ∀ m, u.pool m =
    if m = n ∨ (t.pool n).parent = some m then { t.pool m with charged := f (t.pool m).charged } else t.pool m

/-- From `t` to `u` nothing of any pool moves but its charged sum and its queue. -/
def PoolsKeepFigures (t u : State) : Prop :=
  ∀ n, u.pool n = { t.pool n with charged := (u.pool n).charged, queue := (u.pool n).queue }

/-- Every grant live in `t` is live in `u` as it was. -/
def KeepsGrants (t u : State) : Prop := ∀ i, ∀ g ∈ t.grant? i, u.grant? i = some g

/-- From `t` to `u` nothing moves but what a service pass touches: charged sums and queues, the grant table with its age
list, the wait table, the marks and the notices handed over; and no live grant is changed or freed (R47, R49). -/
def OnlyServes (t u : State) : Prop :=
  u = { t with
        pools := u.pools, grants := u.grants, ageList := u.ageList, waits := u.waits, marks := u.marks
        transit := u.transit } ∧
    PoolsKeepFigures t u ∧ KeepsGrants t u

/-- From `t` to `u` nothing moves but what a shed touches (R89 to R91, R113, R139): charged sums, the grant table with its age
list, the notices handed over, and, when AUDIT holdings go, sessions and the window. A grant live in `u` was live in `t`,
with the same floor and no fewer units. -/
def OnlySheds (t u : State) : Prop :=
  u = { t with
        pools := u.pools, grants := u.grants, ageList := u.ageList, transit := u.transit, sessions := u.sessions
        window := u.window } ∧
    (∀ n, u.pool n = { t.pool n with charged := (u.pool n).charged }) ∧
    ∀ i, ∀ h ∈ u.grant? i, ∃ g ∈ t.grant? i, h = { g with units := h.units } ∧ h.units ≤ g.units

/-- From `t` to `u` nothing moves but what a lapse, a detachment or the end of the audit window touches (R108, R111, R140):
tables and tokens of the core, sessions, the window, notices handed over, and port `p`'s controller, if one is named. -/
def OnlyReleases (t u : State) (p : Option Port) : Prop :=
  u = { t with
        pools := u.pools, grants := u.grants, ageList := u.ageList, waits := u.waits, marks := u.marks, tokens := u.tokens
        watches := u.watches, sessions := u.sessions, window := u.window, transit := u.transit, ports := u.ports } ∧
    PoolsKeepFigures t u ∧ ∀ q, p ≠ some q → u.port q = t.port q

/-- Port `p` holds nothing: no live grant, no HELD or AUDIT token, no wait record and no watch (law L8). -/
def HoldsNothing (s : State) (p : Port) : Prop :=
  (∀ i, ∀ g ∈ s.grant? i, g.port ≠ p) ∧ (∀ i, ∀ r ∈ s.record? i, r.port ≠ p) ∧
    (∀ n, s.token n ≠ .held p ∧ s.token n ≠ .audit p) ∧ s.watch p = 0

/-! ## The laws -/

/-- L4 and the ranges of the grant table (R22, R23): every generation is 1 to 1023; a live grant is of a defined pool, its
floor at least 1 and no greater than its units, and those at most 65535. -/
def GrantLaw (s : State) : Prop :=
  ∀ i, 1 ≤ (s.grantSlot i).generation ∧ (s.grantSlot i).generation ≤ Config.lastGrantGeneration ∧
    ∀ g ∈ s.grant? i, 1 ≤ g.floor ∧ g.floor ≤ g.units ∧ g.units ≤ 65535 ∧ (s.pool g.pool).defined

/-- The age list holds every live grant once (R26). -/
def AgeLaw (s : State) : Prop := s.ageList.Nodup ∧ ∀ i, i ∈ s.ageList ↔ (s.grant? i).isSome

/-- The ranges of the wait table (R39, R40): every generation is 1 to 2047; a live record is of a defined pool, its floor at
least 1, no greater than its maximum, and that at most 65535. -/
def WaitLaw (s : State) : Prop :=
  ∀ i, 1 ≤ (s.waitSlot i).generation ∧ (s.waitSlot i).generation ≤ Config.lastWaitGeneration ∧
    ∀ r ∈ s.record? i, 1 ≤ r.floor ∧ r.floor ≤ r.max ∧ r.max ≤ 65535 ∧ (s.pool r.pool).defined

/-- Every live record stands once in the queue of its pool and in no other (R42), and every queue is in the order of
priority (R43, law L9). -/
def QueueLaw (s : State) : Prop :=
  ∀ n, (s.pool n).queue.Nodup ∧ (∀ i, i ∈ (s.pool n).queue ↔ ∃ r ∈ s.record? i, r.pool = n) ∧
    (s.pool n).queue.Pairwise fun i j => ∀ r ∈ s.record? i, ∀ q ∈ s.record? j, r.priority ≤ q.priority

/-- No port owns more than 8 live records (R42, law L9). -/
def WaitLimitLaw (s : State) : Prop := ∀ p, s.recordCount p ≤ Config.waitsPerPort

/-- L6: a pool that names a parent is defined, names another pool, and that one is defined and names none (R3). -/
def FamilyLaw (s : State) : Prop :=
  ∀ n, ∀ r ∈ (s.pool n).parent, (s.pool n).defined ∧ (s.pool r).defined ∧ (s.pool r).parent = none ∧ n ≠ r

/-- The units charged to a pool: those of the live grants of the pool and of its branches (R5). -/
def chargedUnits (s : State) (n : PoolNo) : Nat := ((s.liveGrants.filter (s.chargedTo n)).map Grant.units).sum

/-- L1: every charged sum is the units charged to the pool (R5). -/
def ChargeLaw (s : State) : Prop := ∀ n, (s.pool n).charged = chargedUnits s n

/-- The derated capacity is no greater than the nominal capacity (R4), and L2: a DERATED pool is within its derated
capacity (R91). -/
def DerateLaw (s : State) : Prop :=
  ∀ n, (s.pool n).derated ≤ (s.pool n).nominal ∧
    ((s.pool n).derateState = .derated → (s.pool n).charged ≤ (s.pool n).derated)

/-- L5: no port holds more than its quota in a pool (R8). -/
def QuotaLaw (s : State) : Prop := ∀ p n, s.held p n ≤ s.quota p n

/-- L8 and the rest of R101: grants, tokens, records and watches by the session of their port, and the lease counter runs
only while the port is ATTACHED. -/
def SessionLaw (s : State) : Prop :=
  (∀ i, ∀ g ∈ s.grant? i, (s.session g.port).state = .attached ∨
      ((s.session g.port).state = .recovering ∧ g.state = .audit)) ∧
    (∀ n p, s.token n = .held p → (s.session p).state = .attached) ∧
    (∀ n p, s.token n = .audit p → (s.session p).state = .attached ∨ (s.session p).state = .recovering) ∧
    (∀ i, ∀ r ∈ s.record? i, (s.session r.port).state = .attached) ∧
    (∀ p, s.watch p ≠ 0 → (s.session p).state = .attached) ∧
    (∀ p, (s.session p).state = .recovering → s.holdsAudit p) ∧
    (∀ p, (s.port p).lease.isSome → (s.session p).state = .attached)

/-- L10: the audit window is open exactly while an AUDIT grant or token exists (R137). -/
def WindowLaw (s : State) : Prop := s.window.isOpen = s.anyAudit

/-- A watch set holds only tokens that are HELD or AUDIT, and none that its port holds HELD (R71). -/
def WatchLaw (s : State) : Prop :=
  ∀ p n, names (s.watch p) n → s.token n ≠ .free ∧ s.token n ≠ .held p

/-- The notice limit of law L9 (R117). -/
def NoticeLaw (s : State) : Prop := ∀ p, (s.port p).notices.length ≤ Config.noticeLimit

/-- L12: in commissioning state the grant table, the wait table and the token set are empty (R153). -/
def CommissioningLaw (s : State) : Prop :=
  s.commissioning →
    (∀ i, s.grant? i = none) ∧ s.ageList = [] ∧ (∀ i, s.record? i = none) ∧ (∀ n, s.token n = .free) ∧
      s.profile = Profile.unconfigured

/-- Every image slot and the staging buffer are in the canonical form of a memory. -/
def MemoryLaw (s : State) : Prop := (∀ i, (s.imageSlot i).contents.wf) ∧ s.staging.wf

/-- From `m` to `n` bits turn from 1 to 0 and none from 0 to 1 (R144). -/
def OnlyProgrammed (m n : Memory) : Prop := ∀ a, n.read a = m.read a &&& n.read a

/-! ## Words of the statements that name a law, a release, a shed or a pass -/

/-- The generation a slot shows after its grant or record goes, wrapping from `last` to 1 (R23, R40). -/
def generationAfter (last g : Nat) : Nat := if g = last then 1 else g + 1

/-- The mask that names the tokens port `p` holds, HELD and AUDIT (R66). -/
def tokensOf (t : State) (p : Port) : Word := maskOf fun n => t.token n == .held p || t.token n == .audit p

/-- The notices of one freeing of the tokens of a mask, by the watch sets of `t`: one TOKEN_FREE to each of the ports that
`told` picks out and that watched some of them, with those (R73). -/
def tokenFreeNotices (t : State) (freed : Word) (told : Port → Bool) : List (Port × Notice) :=
  ((List.finRange 4).filter fun q => told q && (t.watch q &&& freed) != 0).map fun q =>
    (q, .tokenFree (t.watch q &&& freed))

/-- Whether grant slot `i` of `t` holds a grant of port `p`. -/
def holdsGrant (t : State) (p : Port) (i : GrantNo) : Bool := (t.grant? i).any fun g => g.port == p

/-- Whether wait slot `w` of `t` holds a record of port `p`. -/
def holdsRecord (t : State) (p : Port) (w : WaitNo) : Bool := (t.record? w).any fun r => r.port == p

/-- From `t` to `v` everything port `p` holds is freed and what every other port holds stays (R108 steps 1 to 4; R32, R46,
R73): its grants and records leave their slots, whose generations advance, the age list and the queues; its tokens are FREE
and out of every watch set; its own watch set is empty; and the charged sums are those of the grants that stay (R5). -/
def FreesHoldings (t v : State) (p : Port) : Prop :=
  (∀ i, v.grantSlot i =
    if holdsGrant t p i then { generation := generationAfter 1023 (t.grantSlot i).generation, grant := none }
    else t.grantSlot i) ∧
  v.ageList = (t.ageList.filter fun i => !holdsGrant t p i) ∧
  (∀ w, v.waitSlot w =
    if holdsRecord t p w then { generation := generationAfter 2047 (t.waitSlot w).generation, record := none }
    else t.waitSlot w) ∧
  (QueueLaw t → ∀ n, (v.pool n).queue = (t.pool n).queue.filter fun w => !holdsRecord t p w) ∧
  (∀ n, v.token n = if t.token n = .held p ∨ t.token n = .audit p then .free else t.token n) ∧
  (∀ q, v.watch q = if q = p then 0 else t.watch q &&& ~~~tokensOf t p) ∧ (FamilyLaw t → ChargeLaw t → ChargeLaw v)

/-- The roots a pass serves once everything port `p` held in `t` is freed (R33, R108 step 7): those of its records' families
and of its grants' families and, when it had a grant, every marked one. -/
def ServesHoldings (t : State) (p : Port) (roots : List PoolNo) : Prop :=
  ∀ n, n ∈ roots ↔ (∃ w, ∃ r ∈ t.record? w, r.port = p ∧ t.rootOf r.pool = n) ∨
    ∃ i, ∃ g ∈ t.grant? i, g.port = p ∧ (t.rootOf g.pool = n ∨ t.mark n = true)

/-- From `w` to `u` the core draws the consequences of AUDIT holdings that went: a RECOVERING port that holds none becomes
DETACHED (R113), and the window closes if the part holds none (R139). -/
def DetachesBare (w u : State) : Prop :=
  (∀ q, u.session q =
    if (w.session q).state = .recovering ∧ w.holdsAudit q = false then { w.session q with state := .detached }
    else w.session q) ∧
  u = { w with sessions := u.sessions, window := windowAfter w w }

/-- The units of a grant above its floor, which the trim phase can take (R89). -/
def trimmable (s : State) (i : GrantNo) : Nat := ((s.grant? i).map fun g => g.units - g.floor).getD 0

/-- The units of a grant that the trim phase cannot take. -/
def untrimmable (s : State) (i : GrantNo) : Nat := ((s.grant? i).map fun g => g.units - (g.units - g.floor)).getD 0

/-- The units the trim phase takes from the candidate at place `k` of the ranking (R89): what it has above its floor, but no
more than the excess that the candidates before it left. -/
def trimAt (s : State) (ranking : List GrantNo) (excess k : Nat) : Nat :=
  min ((ranking[k]?.map (trimmable s)).getD 0) (excess - ((ranking.take k).map (trimmable s)).sum)

/-- Whether the revoke phase frees the candidate at place `k` of the ranking (R90): some excess is left by the whole trim
phase and by the candidates revoked before it. -/
def revokesAt (s : State) (ranking : List GrantNo) (excess k : Nat) : Bool :=
  (ranking.map (trimmable s)).sum + ((ranking.take k).map (untrimmable s)).sum < excess

/-- The candidates for shedding pool `n` in their order (R87, R88): the live grants charged to it, those of ports of a lower
priority before those of a higher one, and newer ones before older ones of one priority. -/
def RanksCandidates (s : State) (n : PoolNo) (ranking : List GrantNo) : Prop :=
  (∀ i, i ∈ ranking ↔ ∃ g ∈ s.grant? i, g.pool = n ∨ (s.pool g.pool).parent = some n) ∧
  ranking.Pairwise fun i j => ∀ g ∈ s.grant? i, ∀ h ∈ s.grant? j,
    (s.portProfile h.port).priority < (s.portProfile g.port).priority ∨
      ((s.portProfile h.port).priority = (s.portProfile g.port).priority ∧ s.ageList.idxOf j < s.ageList.idxOf i)

/-- From `s` to `u` an excess is shed over ranked candidates (R89 to R91): first trims, then revocations, each in rank order
and only while excess remains; a TRIMMED notice for each trim, then a REVOKED notice of cause SHED for each revocation. -/
def ShedsInOrder (s u : State) (ranking : List GrantNo) (excess : Nat) : Prop :=
  (∀ i, i ∉ ranking → u.grantSlot i = s.grantSlot i) ∧
  (∀ k i g, ranking[k]? = some i → s.grant? i = some g → u.grantSlot i =
    if revokesAt s ranking excess k then
      { generation := generationAfter 1023 (s.grantSlot i).generation, grant := none }
    else { s.grantSlot i with grant := some { g with units := g.units - trimAt s ranking excess k } }) ∧
  u.ageList = (s.ageList.filter fun i => (u.grant? i).isSome) ∧
  u.transit = s.transit ++
    (ranking.zipIdx.filterMap fun x => (s.grant? x.1).bind fun g =>
      if trimAt s ranking excess x.2 = 0 then none
      else some (g.port, .trimmed ((s.grantSlot x.1).generation * 64 + x.1.val) (g.units - trimAt s ranking excess x.2))) ++
    (ranking.zipIdx.filterMap fun x => (s.grant? x.1).bind fun g =>
      if revokesAt s ranking excess x.2 then
        some (g.port, .revoked ((s.grantSlot x.1).generation * 64 + x.1.val) .shed)
      else none)

/-- The state after a pass removed the record `r` of wait slot `w` for quota (R46, R53). -/
def refusedForQuota (s : State) (w : WaitNo) (r : WaitRecord) : State :=
  { s with
    waits := s.waits.set w { generation := generationAfter 2047 (s.waitSlot w).generation, record := none }
    pools := s.pools.set r.pool { s.pool r.pool with queue := (s.pool r.pool).queue.filter (· ≠ w) }
    transit := s.transit ++ [(r.port, .waitEnded ((s.waitSlot w).generation * 32 + w.val) .quota r.tag)] }

/-- From `s` to `u` a pass grants `units` to the record `r` of wait slot `w` in grant slot `i` (R27, R46, R55). -/
def PassGrants (s u : State) (w : WaitNo) (r : WaitRecord) (i : GrantNo) (units : Nat) : Prop :=
  (∀ m, u.pool m = { s.pool m with
    charged := if m = r.pool ∨ (s.pool r.pool).parent = some m then (s.pool m).charged + units else (s.pool m).charged
    queue := if m = r.pool then (s.pool m).queue.filter (· ≠ w) else (s.pool m).queue }) ∧
  u = { s with
    pools := u.pools
    ageList := s.ageList ++ [i]
    grants := s.grants.set i
      { generation := (s.grantSlot i).generation
        grant := some { state := .active, port := r.port, pool := r.pool, units := units, floor := r.floor } }
    waits := s.waits.set w { generation := generationAfter 2047 (s.waitSlot w).generation, record := none }
    transit := s.transit ++ [(r.port, .granted ((s.waitSlot w).generation * 32 + w.val)
      ((s.grantSlot i).generation * 64 + i.val) units r.tag)] }

/-- How a pass serves the records of a pool's queue one by one (R50 to R55): the first record's floor above the quota room, it
is removed for quota and the pass goes on; the grant table full, the pool stops and its family is marked; its grantable
amount enough, it is granted in the lowest FREE slot and the pass goes on; otherwise an ORDERED pool stops and a FIT pool
goes on to the next record. -/
def ServesRecord (s : State) (fam : PoolNo) (w : WaitNo) (rest : List WaitNo) (r : WaitRecord) : Prop :=
  let room := s.quota r.port r.pool - s.held r.port r.pool
  let units := min r.max (min (s.available r.pool) room)
  (room < r.floor →
    State.serveOrdered fam s (w :: rest) = State.serveOrdered fam (refusedForQuota s w r) rest ∧
    State.serveFit fam s (w :: rest) = State.serveFit fam (refusedForQuota s w r) rest) ∧
  (r.floor ≤ room → (∀ i, (s.grant? i).isSome = true) →
    State.serveOrdered fam s (w :: rest) = s.setMark fam true ∧ State.serveFit fam s (w :: rest) = s.setMark fam true) ∧
  (∀ i, r.floor ≤ room → s.grant? i = none → (∀ j, j < i → (s.grant? j).isSome = true) → r.floor ≤ units →
    (s.pool r.pool).parent ≠ some r.pool → ∃ u, PassGrants s u w r i units ∧
      State.serveOrdered fam s (w :: rest) = State.serveOrdered fam u rest ∧
      State.serveFit fam s (w :: rest) = State.serveFit fam u rest) ∧
  (r.floor ≤ room → (∃ i, s.grant? i = none) → units < r.floor →
    State.serveOrdered fam s (w :: rest) = s ∧ State.serveFit fam s (w :: rest) = State.serveFit fam s rest)

end Sys2Proof.Machine
end

