-- ==== Sys2Proof/Certificates/Slice0/Obligations.lean ====
section
/-! DEFINITION. The statements for the provers. In each, `Taken s t p r` says that in `s` the core takes request `r` of port
`p`, `t` being the state at that moment, and `Free s t` that the core takes an event there (Safety.lean). -/

section
open Sys2Proof Sys2Proof.Machine

/-! ## The queue and the reset state -/

/-- The step at the front of the queue is run by `exec` on the state with the queue's rest; an empty queue idles (log
entry 3). -/
def Obligations.StepTakesFrontOfQueue : Prop :=
  (∀ (c : Instr) (rest : List Instr) (s : State),
      step { s with pending := c :: rest } = exec c { s with pending := rest }) ∧
    ∀ s : State, s.pending = [] → step s = .next s

/-- The reset state holds the cold-start values of the rules, with the profile of a part that found no SEALED slot, whose
values are those of R151; nothing is in transit or due. That it is this state, with CSN and RSTN high and four BLANK slots, is
the model's choice (log entry 1); the divider in the copy is log entry 16, the lines before their first sample log entry 19. -/
def Obligations.ResetStateHoldsColdStartValues : Prop :=
  (∀ i, State.reset.grantSlot i = { generation := 1, grant := none }) ∧ State.reset.ageList = [] ∧
    (∀ i, State.reset.waitSlot i = { generation := 1, record := none }) ∧
    (∀ n, State.reset.pool n =
      { defined := false, parent := none, nominal := 0, derated := 0, group := none, policy := .ordered
        derateState := .normal, charged := 0, queue := [] }) ∧
    (∀ n, State.reset.mark n = false) ∧
    (∀ n, State.reset.token n = .free) ∧ (∀ p, State.reset.watch p = 0) ∧
    (∀ p, State.reset.session p = { state := .detached, leasePeriod := 0, lapseCause := none }) ∧
    (∀ p, State.reset.port p =
      { reply := none, lastReply := none, processing := none, handedOn := [], lease := none, notices := [], missed := false
        transaction := none, miso := [] }) ∧
    State.reset.window = { isOpen := false, remaining := 0 } ∧
    State.reset.startKind = .cold ∧ State.reset.restartCount = 0 ∧ State.reset.signature = .matching ∧
    State.reset.lastTaken = 3 ∧ State.reset.answering = none ∧ State.reset.transit = [] ∧
    State.reset.expiryEvents = [] ∧ State.reset.sagEvents = [] ∧ State.reset.auditEndMade = false ∧ State.reset.due = [] ∧
    (∀ g, State.reset.line g = { state := .clear, seen := .low, sampled := false, timer := none }) ∧
    (∀ i, State.reset.imageSlot i = { contents := [], state := .blank }) ∧ (∀ a, Memory.read [] a = 0xFF) ∧
    State.reset.staging = [] ∧ State.reset.sealing = none ∧ State.reset.commissioning = false ∧
    State.reset.rstn = .high ∧ State.reset.phase = .running ∧ State.reset.pending = [] ∧
    State.reset.profile = Profile.unconfigured ∧
    Profile.unconfigured =
      { version := 0, clock := 16000
        pools := Vector.replicate 8
          { defined := false, parent := none, nominal := 0, derated := 0, group := none, policy := .ordered }
        ports := Vector.replicate 4
          { priority := 3, reserve := false, interlock := false, supervise := false, leaseMin := 20, leaseMax := 60000
            quotas := Vector.replicate 8 0 }
        tokenCount := 0, sagA := { qualify := 1000, restore := 60000 }, sagB := { qualify := 1000, restore := 60000 }
        auditTime := 10000, locked := false, siteLabel := Vector.replicate 16 0xFF }

/-- Every law of the part holds in the reset state. -/
def Obligations.LawsHoldAtReset : Prop :=
  GrantLaw State.reset ∧ AgeLaw State.reset ∧ WaitLaw State.reset ∧ QueueLaw State.reset ∧ WaitLimitLaw State.reset ∧
    FamilyLaw State.reset ∧ ChargeLaw State.reset ∧ DerateLaw State.reset ∧ QuotaLaw State.reset ∧
    SessionLaw State.reset ∧ WindowLaw State.reset ∧ WatchLaw State.reset ∧ NoticeLaw State.reset ∧
    CommissioningLaw State.reset ∧ MemoryLaw State.reset

/-! ## The host port link -/

/-- What a transaction shifts is decided when CSN falls, in the order of R161: NOT_READY, PENDING, the reply of the slot,
NO_REPLY. Nothing else changes. -/
def Obligations.CsnFallDecidesReply : Prop :=
  ∀ (s : State) (p : Port), s.phase ≠ .off → (s.port p).transaction = none →
    ∃ x : Transaction, exec (.csnFall p) s = .next (s.modPort p fun c => { c with transaction := some x }) ∧
      (s.phase ≠ .running →
        x = { kind := .notReady, reply := { status := .notReady, tag := 0, flags := 0, payload := [] } }) ∧
      (s.phase = .running → ∀ r ∈ (s.port p).processing,
        x = { kind := .pending, reply := replyIn s p .pending r.tag [] }) ∧
      (s.phase = .running → (s.port p).processing = none → ∀ r ∈ (s.port p).reply,
        x = { kind := .fromSlot, reply := r }) ∧
      (s.phase = .running → (s.port p).processing = none → (s.port p).reply = none →
        x = { kind := .noReply, reply := replyIn s p .noReply 0 [] })

/-- A taken NOP reloads a running lease counter, an expiry of it that was due not happening (R110, log entry 6), and is
answered OK with its tag and no payload; nothing else changes. Bytes after the frame are ignored (R160). -/
def Obligations.NopIsAnsweredOk : Prop :=
  ∀ (s t : State) (p : Port) (tag : Byte) (more : List Byte),
    Rises s t p (frameBytes 0x01 tag [] ++ more) → ¬ (t.commissioning ∧ p ≠ 0) →
    exec (.nop p (frameBytes 0x01 tag [] ++ more)) s = .next { t.modPort p (fun c =>
      { c with lease := reloaded t p, reply := some (replyIn t p .ok tag []) }) with due := dueAfterFrame t p }

/-- A taken RPT places the last-reply copy again, with its status, tag and payload and fresh flags; without a copy,
NO_REPLY with the RPT's tag. The lease counter is reloaded as by a NOP (R110, log entry 6), and nothing else changes. Bytes
after the frame are ignored (R160). -/
def Obligations.RptRepeatsLastReplyCopy : Prop :=
  ∀ (s t : State) (p : Port) (tag : Byte) (more : List Byte),
    Rises s t p (frameBytes 0x02 tag [] ++ more) → ¬ (t.commissioning ∧ p ≠ 0) →
    exec (.rpt p (frameBytes 0x02 tag [] ++ more)) s = .next { t.modPort p (fun c =>
      { c with
        lease := reloaded t p
        reply := some (match c.lastReply with
          | some r => replyIn t p r.status r.tag r.payload
          | none => replyIn t p .noReply tag []) }) with due := dueAfterFrame t p }

/-- A taken NTF removes the oldest notice and answers OK with its kind and fields, the flags byte showing the count after
the removal; on an empty queue it answers kind NONE. MISSED stays as it was, and the lease counter is reloaded as by a NOP
(R110, log entry 6). The answer's payload is kind, cause, frame tag, ticket, handle, units and mask, each kind with the
fields it carries and 0 elsewhere (R118, R173). Bytes after the frame are ignored (R160). -/
def Obligations.NtfFetchesOldestNotice : Prop :=
  (∀ (s t u : State) (p : Port) (tag : Byte) (more : List Byte),
    Rises s t p (frameBytes 0x03 tag [] ++ more) → ¬ (t.commissioning ∧ p ≠ 0) →
    u = { t.modPort p (fun c => { c with lease := reloaded t p, notices := c.notices.tail }) with
      due := dueAfterFrame t p } →
    exec (.ntf p (frameBytes 0x03 tag [] ++ more)) s = .next (u.modPort p fun c =>
      { c with reply := some (replyIn u p .ok tag (ntfPayload (t.port p).notices.head?)) })) ∧
  ntfPayload none = List.replicate 11 0x00 ∧
  (∀ (ticket handle units : Nat) (tag : Byte), ntfPayload (some (.granted ticket handle units tag)) =
    [0x01, 0x00, tag] ++ wordField ticket ++ wordField handle ++ wordField units ++ [0x00, 0x00]) ∧
  (∀ (ticket : Nat) (cause : WaitEnd) (tag : Byte), ntfPayload (some (.waitEnded ticket cause tag)) =
    [0x02, if cause = .expired then 0x01 else 0x02, tag] ++ wordField ticket ++ List.replicate 6 0x00) ∧
  (∀ handle units : Nat, ntfPayload (some (.trimmed handle units)) =
    [0x03, 0x00, 0x00, 0x00, 0x00] ++ wordField handle ++ wordField units ++ [0x00, 0x00]) ∧
  (∀ (handle : Nat) (cause : RevokeCause), ntfPayload (some (.revoked handle cause)) =
    ([0x04, (match cause with | .shed => 0x01 | .supervisor => 0x02 | .auditEnd => 0x03), 0x00, 0x00, 0x00] : List Byte) ++
      wordField handle ++ List.replicate 4 0x00) ∧
  (∀ mask : Word, ntfPayload (some (.tokenFree mask)) = 0x05 :: List.replicate 8 0x00 ++ wordField mask.toNat) ∧
  (∀ cause : LapseCause, ntfPayload (some (.lapsed cause)) =
    [0x06, if cause = .lease then 0x01 else 0x02] ++ List.replicate 9 0x00) ∧
  ∀ n : Nat, n < 65536 → ∃ high low : Byte, wordField n = [high, low] ∧ n = high.toNat * 256 + low.toNat

/-- A FILL, and a transaction of no whole byte, place nothing: what is left is the consumption of the slot's reply, which a
transaction of no whole byte does not make. That a transaction of no whole byte ends by the row FILL is the model's (log
entry 13): R160 calls only a first byte of 0xFF a FILL. -/
def Obligations.FillPlacesNothing : Prop :=
  ∀ (s t : State) (p : Port) (mosi : List Byte), (mosi = [] ∨ mosi.head? = some 0xFF) → Rises s t p mosi →
    exec (.fill p mosi) s = .next t

/-- A taken request of the core reloads a running lease counter, as a NOP does (R110, log entry 6), is handed on after what
the port has handed on before, and is in processing; nothing else changes. The frame is the request's, built with its
CRC-8; bytes after it are ignored (R160). -/
def Obligations.RequestIsHandedOn : Prop :=
  ∀ (s t : State) (p : Port) (r : Request) (more : List Byte), r.command.wellFormed →
    Rises s t p (r.frame ++ more) → ¬ (t.commissioning ∧ p ≠ 0) →
    exec (.requestTaken p (r.frame ++ more)) s = .next { t.modPort p (fun c =>
      { c with lease := reloaded t p, processing := some r, handedOn := c.handedOn ++ [.request r] }) with
      due := dueAfterFrame t p }

/-- The first case that applies decides (R166): an unknown code, alone FRAME_ERROR with tag 0 and otherwise UNKNOWN with the
second byte; a known code short of its length, FRAME_ERROR with the second byte or 0; a whole frame whose last byte is not
the CRC-8 of the others, FRAME_ERROR with its tag. Nothing else changes, no lease is reloaded. -/
def Obligations.BadFramesAreAnswered : Prop :=
  ∀ (s t : State) (p : Port) (code : Byte) (rest : List Byte), code ≠ 0xFF → Rises s t p (code :: rest) →
    (frameLength code = none → rest = [] →
      exec (.frameError p (code :: rest)) s = .next (t.modPort p fun c =>
        { c with reply := some (replyIn t p .frameError 0 []) })) ∧
    (frameLength code = none → ∀ tag ∈ rest.head?,
      exec (.unknown p (code :: rest)) s = .next (t.modPort p fun c =>
        { c with reply := some (replyIn t p .unknown tag []) })) ∧
    (∀ len ∈ frameLength code,
      (rest.length + 1 < len ∨
        crc8 ((code :: rest).take (len - 1)) ≠ ((code :: rest).take len).getLastD 0) →
      exec (.frameError p (code :: rest)) s = .next (t.modPort p fun c =>
        { c with reply := some (replyIn t p .frameError (rest.headD 0) []) }))

/-- A transaction that shifted PENDING or NOT_READY ends with its frame discarded: it shifts its reply and then 0xFF, and
nothing changes but that it is over. One that a reset cut shifts its reply for the bytes before the cut and 0xFF after; that
it ends by NOT_READY, and `before` as the number of those bytes, are the model's (log entry 14). -/
def Obligations.DiscardedTransactionsEnd : Prop :=
  ∀ (s : State) (p : Port) (mosi : List Byte) (before : Nat), ∀ x ∈ (s.port p).transaction,
    (x.kind = .pending → exec (.pending p mosi) s = .next (s.modPort p fun c =>
      { c with transaction := none, miso := (List.range mosi.length).map fun i => x.reply.bytes.getD i 0xFF })) ∧
    (x.kind = .notReady → exec (.notReady p mosi before) s = .next (s.modPort p fun c =>
      { c with transaction := none, miso := (List.range mosi.length).map fun i => x.reply.bytes.getD i 0xFF })) ∧
    (x.kind = .cut → ∃ miso : List Byte, miso.length = mosi.length ∧
      (∀ i, i < mosi.length → miso.getD i 0 = if i < before then x.reply.bytes.getD i 0xFF else 0xFF) ∧
      exec (.notReady p mosi before) s = .next (s.modPort p fun c => { c with transaction := none, miso := miso }))

/-- In commissioning state the port controllers of P1 to P3 answer every taken frame COMMISSIONING themselves, with every
payload field 0 (an RPT's with no payload); nothing reaches the core. The frame reloads a lease counter as any taken frame
does (R110, log entry 6), and bytes after it are ignored (R160). -/
def Obligations.CommissioningPortsAnswer : Prop :=
  ∀ (s t : State) (p : Port) (tag : Byte) (r : Request) (more : List Byte), t.commissioning → p ≠ 0 → r.command.wellFormed →
    (Rises s t p (frameBytes 0x01 tag [] ++ more) →
      exec (.nop p (frameBytes 0x01 tag [] ++ more)) s = .next { t.modPort p (fun c =>
      { c with lease := reloaded t p, reply := some (replyIn t p .commissioning tag []) }) with
      due := dueAfterFrame t p }) ∧
    (Rises s t p (frameBytes 0x02 tag [] ++ more) →
      exec (.rpt p (frameBytes 0x02 tag [] ++ more)) s = .next { t.modPort p (fun c =>
      { c with lease := reloaded t p, reply := some (replyIn t p .commissioning tag []) }) with
      due := dueAfterFrame t p }) ∧
    (Rises s t p (frameBytes 0x03 tag [] ++ more) →
      exec (.ntf p (frameBytes 0x03 tag [] ++ more)) s = .next { t.modPort p (fun c =>
      { c with lease := reloaded t p, reply := some (replyIn t p .commissioning tag (List.replicate 11 0)) }) with
      due := dueAfterFrame t p }) ∧
    (Rises s t p (r.frame ++ more) →
      exec (.requestTaken p (r.frame ++ more)) s = .next { t.modPort p (fun c =>
      { c with
        lease := reloaded t p
        reply := some (replyIn t p .commissioning r.tag (List.replicate (payloadLength r.command) 0)) }) with
      due := dueAfterFrame t p })

/-- Before the core's answer is placed, the item's notices reach their port controllers in the order they were posted, each
queue taking them up to 8 and MISSED set where one is lost; then the answer is placed with the tag of the request in
processing and the flags byte read there, and the processing ends. The flags byte holds session state, notice count, MISSED
and window in its bits 1:0, 5:2, 6 and 7 (R165); a reply is status code, tag echo, flags byte, payload and the CRC-8 over them
(R164); the status codes are those of R173. That the session state and the window the flags show are the core's own records
at that moment, and not an older report of them, is log entry 21. -/
def Obligations.ReplyIsPlacedAfterNotices : Prop :=
  (∀ (s : State) (p : Port), NoticeLaw s →
    (s.flags p).toNat = (match (s.session p).state with | .detached => 0 | .attached => 1 | .lapsed => 2 | .recovering => 3) +
      4 * (s.port p).notices.length + (if (s.port p).missed then 64 else 0) + if s.window.isOpen then 128 else 0) ∧
  (∀ r : Reply, r.bytes = r.status.code :: r.tag :: r.flags :: r.payload ++
    [crc8 (r.status.code :: r.tag :: r.flags :: r.payload)]) ∧
  ([.ok, .queued, .partly, .frameError, .unknown, .notReady, .pending, .noReply, .notAttached, .lapsed, .noRight, .noProfile,
      .locked, .commissioning, .badPool, .badValue, .badHandle, .badTicket, .badToken, .noRoom, .overQuota, .tableFull,
      .queueFull, .conflict, .inAudit, .notAudit, .noSlot, .stagingInvalid, .sealFailed] : List Status).map Status.code =
    [0x00, 0x01, 0x02, 0x10, 0x11, 0x12, 0x13, 0x14, 0x20, 0x21, 0x22, 0x23, 0x24, 0x25, 0x30, 0x31, 0x32, 0x33, 0x34, 0x40,
      0x41, 0x42, 0x43, 0x44, 0x45, 0x46, 0x50, 0x51, 0x52] ∧
  ∀ (s t : State) (a : Answer) (r : Request), s.phase = .running ∨ s.phase = .resetTaking → NoticeLaw s →
    s.answering = some a → (s.port a.port).processing = some r → t = s.deliverPosts →
    (∀ q, let all := (s.port q).notices ++ (s.transit.filter fun x => x.1 == q).map Prod.snd
      t.port q = { s.port q with notices := all.take 8, missed := (s.port q).missed || decide (8 < all.length) }) ∧
    exec (.replyPlaced a.port) s = .next { t.modPort a.port (fun c =>
      { c with processing := none, reply := some (replyIn t a.port a.status r.tag a.payload) }) with answering := none }

/-- A notice handed over is stored at the newest end when fewer than 8 are held; otherwise the queue stays as it was and
MISSED is set. It is the oldest notice in transit to the port, and nothing else changes. ATTN is high exactly while the queue
holds a notice, and low from the moment the core takes a warm reset until a start completes (R121); without power it is low
too (log entry 17). -/
def Obligations.NoticeIsStoredOrMissed : Prop :=
  (∀ (s : State) (p : Port),
    s.attn p = if (s.phase = .running ∨ s.phase = .resetTaking) ∧ (s.port p).notices ≠ [] then .high else .low) ∧
  ∀ (s : State) (p : Port) (n : Notice), s.phase = .running ∨ s.phase = .resetTaking →
    (s.transit.find? fun x => x.1 == p) = some (p, n) →
    exec (.noticePost p) s = .next { s.modPort p (fun c =>
      if c.notices.length < 8 then { c with notices := c.notices ++ [n] } else { c with missed := true }) with
      transit := s.transit.erase (p, n) }

/-- Every request of the core, sent as the frame of its command's layout with its CRC-8, is read back by the examination
with its tag and every operand, whatever bytes follow (R160). The codes and layouts are those of R173, each field high byte
first, the CRC-8 last; the known codes, with their frame lengths, are those of R173 and no others; the CRC-8 has the check
value of R163. -/
def Obligations.FramesReadBackAsRequests : Prop :=
  (∀ (r : Request) (more : List Byte), r.command.wellFormed → examine (r.frame ++ more) = .request r) ∧
  crc8 [0x31, 0x32, 0x33, 0x34, 0x35, 0x36, 0x37, 0x38, 0x39] = 0xF4 ∧
  (∀ (code : Byte) (n : Nat), frameLength code = some n ↔ (code, n) ∈
    ([(0x01, 3), (0x02, 3), (0x03, 3), (0x10, 5), (0x11, 3), (0x20, 10), (0x21, 7), (0x22, 5), (0x23, 5), (0x24, 5), (0x28, 5),
      (0x29, 4), (0x2A, 3), (0x2B, 3), (0x30, 7), (0x31, 5), (0x32, 5), (0x33, 5), (0x40, 8), (0x41, 5), (0x42, 4), (0x43, 3),
      (0x60, 5), (0x61, 20), (0x62, 3), (0x63, 3)] : List (Byte × Nat))) ∧
  ∀ (tag : Byte) (c : Command),
    let high := fun w : Word => w.extractLsb' 8 8
    let low := fun w : Word => w.extractLsb' 0 8
    let sent : List Byte := match c with
      | .att lease => [0x10, tag, high lease, low lease]
      | .det => [0x11, tag]
      | .rsv pool floor max wait => [0x20, tag, pool, high floor, low floor, high max, low max, high wait, low wait]
      | .adj handle units => [0x21, tag, high handle, low handle, high units, low units]
      | .rel handle => [0x22, tag, high handle, low handle]
      | .can ticket => [0x23, tag, high ticket, low ticket]
      | .cnf handle => [0x24, tag, high handle, low handle]
      | .qgr handle => [0x28, tag, high handle, low handle]
      | .qpl pool => [0x29, tag, pool]
      | .qpt => [0x2A, tag]
      | .qdv => [0x2B, tag]
      | .clm mask mode watch => [0x30, tag, high mask, low mask, mode, watch]
      | .drp mask => [0x31, tag, high mask, low mask]
      | .cnt mask => [0x32, tag, high mask, low mask]
      | .uwt mask => [0x33, tag, high mask, low mask]
      | .scp pool nominal derated => [0x40, tag, pool, high nominal, low nominal, high derated, low derated]
      | .rvk handle => [0x41, tag, high handle, low handle]
      | .evc target => [0x42, tag, target]
      | .rsr => [0x43, tag]
      | .srd slot block => [0x60, tag, slot, block]
      | .stg block data => [0x61, tag, block] ++ data
      | .chk => [0x62, tag]
      | .sel => [0x63, tag]
    Request.frame ⟨tag, c⟩ = sent ++ [crc8 sent]

/-! ## Requests of the core: what is common -/

/-- The session check comes before a command's own checks (R102): outside commissioning state every command but ATT, QDV and
QPT is refused LAPSED from a LAPSED port and NOT_ATTACHED from a DETACHED or RECOVERING one. In commissioning state every
command but QDV, SRD, STG, CHK and SEL is refused COMMISSIONING (R154). A refusal changes nothing but the answer, whose
payload is that of the command's layout with every field 0 (R164, R173). -/
def Obligations.SessionCheckComesFirst : Prop :=
  (∀ c : Command,
    anySession c = (match c with | .att _ => true | .qdv => true | .qpt => true | _ => false) ∧
    inCommissioning c =
      (match c with | .qdv => true | .srd _ _ => true | .stg _ _ => true | .chk => true | .sel => true | _ => false) ∧
    payloadLength c = (match c with
      | .att _ => 7 | .rsv _ _ _ _ => 6 | .adj _ _ => 4 | .cnf _ => 4 | .qgr _ => 7 | .qpl _ => 19 | .qpt => 13 | .qdv => 26
      | .clm _ _ _ => 4 | .drp _ => 2 | .cnt _ => 2 | .uwt _ => 2 | .srd _ _ => 17 | .chk => 2 | .sel => 3 | _ => 0)) ∧
  ∀ (s t : State) (p : Port) (r : Request), Taken s t p r →
    (t.commissioning = false → anySession r.command = false → (t.session p).state = .lapsed →
      exec (stepOf p r) s = .next (refusedWith t p .lapsed (payloadLength r.command))) ∧
    (t.commissioning = false → anySession r.command = false →
      ((t.session p).state = .detached ∨ (t.session p).state = .recovering) →
      exec (stepOf p r) s = .next (refusedWith t p .notAttached (payloadLength r.command))) ∧
    (t.commissioning → inCommissioning r.command = false →
      exec (stepOf p r) s = .next (refusedWith t p .commissioning (payloadLength r.command)))

/-- The rotation (R171): the core takes a request of port `p` exactly when the part runs, that request is the first thing
the port has handed on, and no port that comes before `p` in the cyclic order after the port taken last has a request
waiting. Then the rotation stands at `p` and the request is off its list. A request that stands behind its own
port's lapse event counts as waiting (log entry 7). With nothing due, no notice on its way and no answer unplaced, the state in
which the core takes work is the state itself (log entries 5 and 6). -/
def Obligations.RotationPicksNextWaitingPort : Prop :=
  ∀ (s : State) (p : Port) (r : Request),
    (s.takes p r = true ↔
      s.phase = .running ∧ (s.port p).handedOn.head? = some (.request r) ∧
        ∀ k : Fin 4, k < p - (s.lastTaken + 1) → s.requestWaits (s.lastTaken + 1 + k) = false) ∧
    (s.took p).lastTaken = p ∧ ((s.took p).port p).handedOn = (s.port p).handedOn.tail ∧
    (s.due = [] → s.transit = [] → s.answering = none → s.ready = s)

/-! ## Sessions -/

/-- ATT (R103, R104, R176): NO_PROFILE while UNCONFIGURED, BAD_VALUE for a lease period outside the port's bounds; otherwise
the session is ATTACHED with the period carried and no lapse cause, the lease counter is loaded with it, and the reply
carries start kind, restart count, image version, the number of AUDIT grants and the AUDIT-token mask. A session that comes back
to ATTACHED receives no lapse event made before (R109; that the ATT discards it is log entry 32). The start kinds are coded as
R174 gives. -/
def Obligations.AttachAnswers : Prop :=
  ([.cold, .warm, .warmLost] : List StartKind).map StartKind.code = [0x00, 0x01, 0x02] ∧
  ∀ (s t : State) (p : Port) (tag : Byte) (lease : Word), Taken s t p ⟨tag, .att lease⟩ → t.commissioning = false →
    (t.profile.version = 0 → exec (.att p tag lease) s = .next (refusedWith t p .noProfile 7)) ∧
    (t.profile.version ≠ 0 →
      (lease.toNat < (t.portProfile p).leaseMin ∨ (t.portProfile p).leaseMax < lease.toNat) →
      exec (.att p tag lease) s = .next (refusedWith t p .badValue 7)) ∧
    (t.profile.version ≠ 0 → (t.portProfile p).leaseMin ≤ lease.toNat → lease.toNat ≤ (t.portProfile p).leaseMax →
      exec (.att p tag lease) s = .next (answered
        ((t.setSession p { state := .attached, leasePeriod := lease.toNat, lapseCause := none }).modPort p fun c =>
          { c with
            lease := some lease.toNat
            handedOn := if (t.session p).state = .attached then c.handedOn else c.handedOn.filter (· ≠ .lapse) }) p .ok
        ([t.startKind.code, BitVec.ofNat 8 t.restartCount] ++ wordField t.profile.version ++
          [BitVec.ofNat 8 (t.liveGrants.filter fun g => g.port == p && g.state == .audit).length] ++
          maskField (maskOf fun n => t.token n == .audit p))))

/-- DET (R111, R177): the port holds nothing afterwards, its session is DETACHED with lease period 0 and no cause, its
counter stopped, its notice queue empty and MISSED clear; it is answered OK, the window is open no longer than an AUDIT
holding is left, and nothing moves but what a detachment touches. What every other port holds stays, each other port that
watched a freed token is told, and a pass serves the families concerned. -/
def Obligations.DetachReleasesEverything : Prop :=
  ∀ (s t : State) (p : Port) (tag : Byte), Taken s t p ⟨tag, .det⟩ → Attached t p → AgeLaw t →
    ∃ v u roots, exec (.det p tag) s = .next (answered u p .ok []) ∧ OnlyReleases t v (some p) ∧ FreesHoldings t v p ∧
      v.transit = t.transit ++ tokenFreeNotices t (tokensOf t p) (· != p) ∧ v.marks = t.marks ∧
      v.window = windowAfter t v ∧ ServesHoldings t p roots ∧ u = v.servicePass roots ∧ OnlyServes v u ∧
      OnlyReleases t u (some p) ∧ HoldsNothing u p ∧
      u.sessions = t.sessions.set p { state := .detached, leasePeriod := 0, lapseCause := none } ∧
      u.port p = { t.port p with lease := none, notices := [], missed := false } ∧
      (t.window.isOpen → u.window.isOpen = u.anyAudit)

/-- LAPSE (R108, R109): taken for an ATTACHED port, it leaves the port holding nothing, LAPSED with cause LEASE and its lease
period as it was, its counter stopped and LAPSED handed over to it after the TOKEN_FREE notices to the other ports; what
every other port holds stays, and a pass serves the families concerned. Taken for any other port, it changes nothing but
that it is taken. -/
def Obligations.LapseReleasesEverything : Prop :=
  ∀ (s t v : State) (p : Port) (rest : List HandedOn), Free s t → (t.port p).handedOn = .lapse :: rest →
    v = t.modPort p (fun c => { c with handedOn := rest }) →
    ((t.session p).state ≠ .attached → exec (.lapse p) s = .next v) ∧
    ((t.session p).state = .attached → AgeLaw t →
      ∃ w u roots, exec (.lapse p) s = .next u ∧ OnlyReleases v w (some p) ∧ FreesHoldings t w p ∧
        w.transit = t.transit ++ tokenFreeNotices t (tokensOf t p) (· != p) ++ [(p, .lapsed .lease)] ∧ w.marks = t.marks ∧
        w.window = windowAfter t w ∧ ServesHoldings t p roots ∧ u = w.servicePass roots ∧ OnlyServes w u ∧
        OnlyReleases v u (some p) ∧ HoldsNothing u p ∧
        u.sessions = t.sessions.set p { t.session p with state := .lapsed, lapseCause := some .lease } ∧
        u.port p = { v.port p with lease := none } ∧ (p, .lapsed .lease) ∈ u.transit ∧
        (t.window.isOpen → u.window.isOpen = u.anyAudit))

/-- EVC (R112, R194): NO_RIGHT without SUPERVISE, BAD_VALUE for a port above 3 or the requester itself, NOT_ATTACHED for a
DETACHED or LAPSED port; otherwise the named port lapses with cause EVICTED and holds nothing, what every other port holds
stays, the watchers are told, a pass serves the families concerned, and the answer is OK. -/
def Obligations.EvictionLapsesNamedPort : Prop :=
  ∀ (s t : State) (p : Port) (tag target : Byte), Taken s t p ⟨tag, .evc target⟩ → Attached t p →
    ((t.portProfile p).supervise = false → exec (.evc p tag target) s = .next (refusedWith t p .noRight 0)) ∧
    ((t.portProfile p).supervise → (3 < target.toNat ∨ target.toNat = p.val) →
      exec (.evc p tag target) s = .next (refusedWith t p .badValue 0)) ∧
    ∀ q : Port, (t.portProfile p).supervise → target.toNat = q.val → q ≠ p →
      (((t.session q).state = .detached ∨ (t.session q).state = .lapsed) →
        exec (.evc p tag target) s = .next (refusedWith t p .notAttached 0)) ∧
      (((t.session q).state = .attached ∨ (t.session q).state = .recovering) → AgeLaw t →
        ∃ w u roots, exec (.evc p tag target) s = .next (answered u p .ok []) ∧ OnlyReleases t w (some q) ∧
          FreesHoldings t w q ∧
          w.transit = t.transit ++ tokenFreeNotices t (tokensOf t q) (· != q) ++ [(q, .lapsed .evicted)] ∧
          w.marks = t.marks ∧ w.window = windowAfter t w ∧ ServesHoldings t q roots ∧ u = w.servicePass roots ∧
          OnlyServes w u ∧ OnlyReleases t u (some q) ∧ HoldsNothing u q ∧
          u.sessions = t.sessions.set q { t.session q with state := .lapsed, lapseCause := some .evicted } ∧
          u.port q = { t.port q with lease := none } ∧ (q, .lapsed .evicted) ∈ u.transit ∧
          (t.window.isOpen → u.window.isOpen = u.anyAudit))

/-! ## Grants and waiting requests -/

/-- The checks of RSV in their order (R178): the first that fails decides, and nothing else changes. -/
def Obligations.ReserveChecksInOrder : Prop :=
  ∀ (s t : State) (p : Port) (tag pool : Byte) (floor max wait : Word),
    Taken s t p ⟨tag, .rsv pool floor max wait⟩ → Attached t p →
    ((t.portProfile p).reserve = false →
      exec (.rsv p tag pool floor max wait) s = .next (refusedWith t p .noRight 6)) ∧
    ((t.portProfile p).reserve → (∀ n : PoolNo, n.val = pool.toNat → (t.pool n).defined = false) →
      exec (.rsv p tag pool floor max wait) s = .next (refusedWith t p .badPool 6)) ∧
    ∀ n : PoolNo, (t.portProfile p).reserve → n.val = pool.toNat → (t.pool n).defined →
      (t.quota p n = 0 → exec (.rsv p tag pool floor max wait) s = .next (refusedWith t p .noRight 6)) ∧
      (t.quota p n ≠ 0 → ¬ (1 ≤ floor.toNat ∧ floor.toNat ≤ max.toNat) →
        exec (.rsv p tag pool floor max wait) s = .next (refusedWith t p .badValue 6)) ∧
      (t.quota p n ≠ 0 → 1 ≤ floor.toNat → floor.toNat ≤ max.toNat → t.quota p n - t.held p n < floor.toNat →
        exec (.rsv p tag pool floor max wait) s = .next (refusedWith t p .overQuota 6)) ∧
      (t.quota p n ≠ 0 → 1 ≤ floor.toNat → floor.toNat ≤ max.toNat → floor.toNat ≤ t.quota p n - t.held p n →
        ((t.pool n).nominal < floor.toNat ∨ ∃ r ∈ (t.pool n).parent, (t.pool r).nominal < floor.toNat) →
        exec (.rsv p tag pool floor max wait) s = .next (refusedWith t p .noRoom 6))

/-- RSV granted at once (R9, R27, R179): with a floor the pool can grant, the ahead rule passed and a FREE slot, the
lowest-numbered FREE slot holds an ACTIVE grant of the grantable amount at the generation it showed, it is the newest of the
age list, and its units are charged to its pool and root. The handle is the generation times 64 plus the slot (R23). -/
def Obligations.ReserveGrantsAtOnce : Prop :=
  ∀ (s t : State) (p : Port) (tag pool : Byte) (floor max wait : Word) (n : PoolNo) (i : GrantNo) (units : Nat),
    Taken s t p ⟨tag, .rsv pool floor max wait⟩ → Attached t p → FamilyLaw t → ReserveChecksPass t p pool floor max n →
    units = min max.toNat (min (t.available n) (t.quota p n - t.held p n)) → floor.toNat ≤ units →
    AheadRule t p n → t.grant? i = none → (∀ j, j < i → (t.grant? j).isSome) →
    ∃ u, exec (.rsv p tag pool floor max wait) s = .next (answered u p .ok
        (wordField ((t.grantSlot i).generation * 64 + i.val) ++ wordField units ++ wordField 0)) ∧
      ChargeMoves t u n (· + units) ∧
      u = { t with
        pools := u.pools
        ageList := t.ageList ++ [i]
        grants := t.grants.set i
          { generation := (t.grantSlot i).generation
            grant := some { state := .active, port := p, pool := n, units := units, floor := floor.toNat } } }

/-- RSV not granted at once (R28, R44, R179): with a wait field of 0 it is refused, TABLE_FULL when the table alone stood in
the way and NO_ROOM otherwise; with another it is refused QUEUE_FULL when no wait slot is FREE or the port owns 8 records,
and otherwise queued in the lowest FREE wait slot, behind the records of equal or higher priority and before the others
(R43), the family marked when the grant table is full. Nothing else changes. -/
def Obligations.ReserveWaitsOrIsRefused : Prop :=
  ∀ (s t : State) (p : Port) (tag pool : Byte) (floor max wait : Word) (n : PoolNo) (full : Bool),
    Taken s t p ⟨tag, .rsv pool floor max wait⟩ → Attached t p → ReserveChecksPass t p pool floor max n →
    (full = true ↔ ∀ i, (t.grant? i).isSome) →
    let fits := floor.toNat ≤ min max.toNat (min (t.available n) (t.quota p n - t.held p n)) ∧ AheadRule t p n
    (wait = 0 → ¬ fits → exec (.rsv p tag pool floor max wait) s = .next (refusedWith t p .noRoom 6)) ∧
    (wait = 0 → fits → full → exec (.rsv p tag pool floor max wait) s = .next (refusedWith t p .tableFull 6)) ∧
    (wait ≠ 0 → (¬ fits ∨ full) → ((∀ w, (t.record? w).isSome) ∨ 8 ≤ t.recordCount p) →
      exec (.rsv p tag pool floor max wait) s = .next (refusedWith t p .queueFull 6)) ∧
    (∀ w : WaitNo, wait ≠ 0 → (¬ fits ∨ full) → t.recordCount p < 8 → t.record? w = none →
      (∀ v, v < w → (t.record? v).isSome) → QueueLaw t →
      let record : WaitRecord :=
        { port := p, pool := n, floor := floor.toNat, max := max.toNat, priority := (t.portProfile p).priority
          deadline := if wait.toNat = 65535 then none else some wait.toNat, tag := tag }
      let ahead := fun v => ((t.record? v).map WaitRecord.priority).any (· ≤ (t.portProfile p).priority)
      exec (.rsv p tag pool floor max wait) s = .next (answered
        { t with
          waits := t.waits.set w { generation := (t.waitSlot w).generation, record := some record }
          pools := t.pools.set n { t.pool n with
            queue := (t.pool n).queue.filter ahead ++ w :: (t.pool n).queue.filter fun v => !ahead v }
          marks := if full then t.marks.set (t.rootOf n) true else t.marks } p .queued
        (wordField 0 ++ wordField 0 ++ wordField ((t.waitSlot w).generation * 32 + w.val))))

/-- ADJ without a shrink (R29, R30, R180): BAD_VALUE for 0 units, BAD_HANDLE for a handle that names no live grant of the
requester, IN_AUDIT for an AUDIT grant; equal units change nothing; growth is refused by the first of room, quota room and
ahead rule that fails, and otherwise the units and the charged sums rise and nothing else changes. -/
def Obligations.AdjustGrowsAllOrNothing : Prop :=
  ∀ (s t : State) (p : Port) (tag : Byte) (handle units : Word),
    Taken s t p ⟨tag, .adj handle units⟩ → Attached t p →
    (units = 0 → exec (.adj p tag handle units) s = .next (refusedWith t p .badValue 4)) ∧
    (units ≠ 0 → (∀ i g, NamesGrant t handle i g → g.port ≠ p) →
      exec (.adj p tag handle units) s = .next (refusedWith t p .badHandle 4)) ∧
    ∀ i g, units ≠ 0 → NamesGrant t handle i g → g.port = p →
      let more := units.toNat - g.units
      (g.state = .audit → exec (.adj p tag handle units) s = .next (refusedWith t p .inAudit 4)) ∧
      (g.state = .active → units.toNat = g.units →
        exec (.adj p tag handle units) s = .next (answered t p .ok (wordField g.units ++ wordField g.floor))) ∧
      (g.state = .active → g.units < units.toNat → t.available g.pool < more →
        exec (.adj p tag handle units) s = .next (refusedWith t p .noRoom 4)) ∧
      (g.state = .active → g.units < units.toNat → more ≤ t.available g.pool →
        t.quota p g.pool - t.held p g.pool < more →
        exec (.adj p tag handle units) s = .next (refusedWith t p .overQuota 4)) ∧
      (g.state = .active → g.units < units.toNat → more ≤ t.available g.pool →
        more ≤ t.quota p g.pool - t.held p g.pool → ¬ AheadRule t p g.pool →
        exec (.adj p tag handle units) s = .next (refusedWith t p .noRoom 4)) ∧
      (g.state = .active → g.units < units.toNat → more ≤ t.available g.pool →
        more ≤ t.quota p g.pool - t.held p g.pool → AheadRule t p g.pool → FamilyLaw t →
        ∃ u, exec (.adj p tag handle units) s =
            .next (answered u p .ok (wordField units.toNat ++ wordField g.floor)) ∧
          ChargeMoves t u g.pool (· + more) ∧
          u = { t with
            pools := u.pools
            grants := t.grants.set i { t.grantSlot i with grant := some { g with units := units.toNat } } })

/-- ADJ to fewer units (R31, R180): the grant is shrunk, its floor following the units down; then a service pass runs over
the pool's family, and nothing moves but what the pass touches and the grant. The answer is OK with the grant's units and
floor. -/
def Obligations.AdjustShrinksGrant : Prop :=
  ∀ (s t : State) (p : Port) (tag : Byte) (handle units : Word) (i : GrantNo) (g : Grant),
    Taken s t p ⟨tag, .adj handle units⟩ → Attached t p → FamilyLaw t → units ≠ 0 → NamesGrant t handle i g →
    g.port = p → g.state = .active → units.toNat < g.units →
    ∃ v u, exec (.adj p tag handle units) s =
        .next (answered u p .ok (wordField units.toNat ++ wordField (min g.floor units.toNat))) ∧
      ChargeMoves t v g.pool (· - (g.units - units.toNat)) ∧
      v = { t with
        pools := v.pools
        grants := t.grants.set i
          { t.grantSlot i with grant := some { g with units := units.toNat, floor := min g.floor units.toNat } } } ∧
      u = v.servicePass [t.rootOf g.pool] ∧ OnlyServes v u

/-- REL and RVK (R32, R33, R181, R193): without a live grant the handle is refused BAD_HANDLE (REL: of the requester; RVK
needs SUPERVISE first). Otherwise the slot's generation advances, so that the handle names no grant afterwards; the answer
is OK, an owner other than the requester of an RVK is handed REVOKED cause SUPERVISOR, and every other live grant stays. After
an RVK a RECOVERING port with no AUDIT holding is DETACHED (R113); after both the window closes if none is left (R139), and a
pass serves the grant's family and every marked one. -/
def Obligations.ReleaseAndRevokeFreeGrant : Prop :=
  ∀ (s t : State) (p : Port) (tag : Byte) (handle : Word), Attached t p →
    (Taken s t p ⟨tag, .rel handle⟩ → (∀ i g, NamesGrant t handle i g → g.port ≠ p) →
      exec (.rel p tag handle) s = .next (refusedWith t p .badHandle 0)) ∧
    (Taken s t p ⟨tag, .rvk handle⟩ → (t.portProfile p).supervise = false →
      exec (.rvk p tag handle) s = .next (refusedWith t p .noRight 0)) ∧
    (Taken s t p ⟨tag, .rvk handle⟩ → (t.portProfile p).supervise → (∀ i g, ¬ NamesGrant t handle i g) →
      exec (.rvk p tag handle) s = .next (refusedWith t p .badHandle 0)) ∧
    ∀ i g, NamesGrant t handle i g →
      (Taken s t p ⟨tag, .rel handle⟩ → g.port = p →
        ∃ v u, exec (.rel p tag handle) s = .next (answered u p .ok []) ∧
          (FamilyLaw t → ChargeMoves t v g.pool (· - g.units)) ∧
          v = { t with
            pools := v.pools, ageList := t.ageList.filter (· ≠ i), window := windowAfter t v
            grants := t.grants.set i
              { generation := generationAfter 1023 (t.grantSlot i).generation, grant := none } } ∧
          u = v.servicePass (t.rootOf g.pool :: (List.finRange 8).filter t.mark) ∧ OnlyServes v u ∧
          OnlyReleases t u none ∧ FreedThenServed t u i ∧ u.sessions = t.sessions ∧ u.tokens = t.tokens ∧
          u.watches = t.watches) ∧
      (Taken s t p ⟨tag, .rvk handle⟩ → (t.portProfile p).supervise →
        ∃ v u, exec (.rvk p tag handle) s = .next (answered u p .ok []) ∧
          (FamilyLaw t → ChargeMoves t v g.pool (· - g.units)) ∧
          (∀ q, v.session q = if (t.session q).state = .recovering ∧ v.holdsAudit q = false then
            { t.session q with state := .detached } else t.session q) ∧
          v = { t with
            pools := v.pools, ageList := t.ageList.filter (· ≠ i), window := windowAfter t v, sessions := v.sessions
            grants := t.grants.set i
              { generation := generationAfter 1023 (t.grantSlot i).generation, grant := none }
            transit := t.transit ++ if g.port = p then [] else [(g.port, .revoked handle.toNat .supervisor)] } ∧
          u = v.servicePass (t.rootOf g.pool :: (List.finRange 8).filter t.mark) ∧ OnlyServes v u ∧
          OnlyReleases t u none ∧ FreedThenServed t u i ∧ u.tokens = t.tokens ∧ u.watches = t.watches ∧
          (g.port ≠ p → (g.port, .revoked handle.toNat .supervisor) ∈ u.transit))

/-- CAN and EXPIRY_EVENT (R46, R59, R60, R182): a ticket that names no live record of the requester is refused BAD_TICKET,
and an expiry event whose ticket names no live record, or one with time left or no deadline, changes nothing but that it is
taken. Otherwise the slot's generation advances and the record leaves its queue; an expiry hands WAIT_ENDED cause EXPIRED
over. With the record not the head of an ORDERED queue nothing else changes; with it the head, a pass serves its family. -/
def Obligations.CancelAndExpiryEndRecord : Prop :=
  ∀ (s t : State) (p : Port) (tag : Byte) (ticket : Word),
    (Taken s t p ⟨tag, .can ticket⟩ → Attached t p → (∀ w r, NamesRecord t ticket w r → r.port ≠ p) →
      exec (.can p tag ticket) s = .next (refusedWith t p .badTicket 0)) ∧
    (Free s t → ticket.toNat ∈ t.expiryEvents → (∀ w r, ¬ NamesRecord t ticket w r) →
      exec (.expiryEvent ticket) s = .next { t with expiryEvents := t.expiryEvents.erase ticket.toNat }) ∧
    ∀ w r, NamesRecord t ticket w r →
      let removed := fun v : State => { v with
        waits := v.waits.set w
          { generation := if (v.waitSlot w).generation = 2047 then 1 else (v.waitSlot w).generation + 1, record := none }
        pools := v.pools.set r.pool { v.pool r.pool with queue := (v.pool r.pool).queue.filter (· ≠ w) } }
      let expired := fun v : State => { v with
        expiryEvents := v.expiryEvents.erase ticket.toNat
        transit := v.transit ++ [(r.port, .waitEnded ticket.toNat .expired r.tag)] }
      let head := (t.pool r.pool).policy = .ordered ∧ (t.pool r.pool).queue.head? = some w
      (Taken s t p ⟨tag, .can ticket⟩ → Attached t p → r.port = p →
        ∃ u, exec (.can p tag ticket) s = .next (answered u p .ok []) ∧ (¬ head → u = removed t) ∧
          (head → u = (removed t).servicePass [t.rootOf r.pool] ∧ OnlyServes (removed t) u)) ∧
      (Free s t → ticket.toNat ∈ t.expiryEvents → r.deadline ≠ some 0 →
        exec (.expiryEvent ticket) s = .next { t with expiryEvents := t.expiryEvents.erase ticket.toNat }) ∧
      (Free s t → ticket.toNat ∈ t.expiryEvents → r.deadline = some 0 →
        ∃ u, exec (.expiryEvent ticket) s = .next u ∧ (¬ head → u = expired (removed t)) ∧
          (head → u = (expired (removed t)).servicePass [t.rootOf r.pool] ∧ OnlyServes (expired (removed t)) u))

/-- CNF (R183): BAD_HANDLE for a handle that names no live grant of the requester, NOT_AUDIT for an ACTIVE grant; otherwise
the grant is ACTIVE with units, floor, pool and place kept, the audit window closes if no AUDIT holding is left, and nothing
else changes. -/
def Obligations.ConfirmMakesGrantActive : Prop :=
  ∀ (s t : State) (p : Port) (tag : Byte) (handle : Word), Taken s t p ⟨tag, .cnf handle⟩ → Attached t p →
    ((∀ i g, NamesGrant t handle i g → g.port ≠ p) →
      exec (.cnf p tag handle) s = .next (refusedWith t p .badHandle 4)) ∧
    ∀ i g, NamesGrant t handle i g → g.port = p →
      (g.state = .active → exec (.cnf p tag handle) s = .next (refusedWith t p .notAudit 4)) ∧
      (g.state = .audit →
        ∃ u, exec (.cnf p tag handle) s = .next (answered u p .ok (wordField g.units ++ wordField g.floor)) ∧
          u = { t with
            grants := t.grants.set i { t.grantSlot i with grant := some { g with state := .active } }
            window := if t.window.isOpen && !u.anyAudit then { isOpen := false, remaining := 0 } else t.window })

/-! ## Queries -/

/-- QGR, QPL and QDV (R184, R185, R187) change nothing but the answer: QGR reads the live grant of any port or answers
BAD_HANDLE, QPL reads a defined pool or answers BAD_POOL, QDV reads the part, also on P0 in commissioning state. Parent, sag
group, policy, derate state and start kind are coded as R174 gives. -/
def Obligations.QueriesReportAndChangeNothing : Prop :=
  (parentCode none = 0xFF ∧ (∀ n : PoolNo, parentCode (some n) = BitVec.ofNat 8 n.val) ∧
    ([none, some .a, some .b] : List (Option SagGroup)).map groupCode = [0x00, 0x01, 0x02] ∧
    ([.ordered, .fit] : List Policy).map Policy.code = [0x00, 0x01] ∧
    ([.normal, .derated] : List DerateState).map DerateState.code = [0x00, 0x01] ∧
    ([.cold, .warm, .warmLost] : List StartKind).map StartKind.code = [0x00, 0x01, 0x02]) ∧
  ∀ (s t : State) (p : Port) (tag : Byte) (handle : Word) (pool : Byte),
    (Taken s t p ⟨tag, .qgr handle⟩ → Attached t p → (∀ i g, ¬ NamesGrant t handle i g) →
      exec (.qgr p tag handle) s = .next (refusedWith t p .badHandle 7)) ∧
    (∀ i g, Taken s t p ⟨tag, .qgr handle⟩ → Attached t p → NamesGrant t handle i g →
      exec (.qgr p tag handle) s = .next (answered t p .ok
        ([if g.state = .active then 0x01 else 0x02, BitVec.ofNat 8 g.port, BitVec.ofNat 8 g.pool] ++
          wordField g.units ++ wordField g.floor))) ∧
    (Taken s t p ⟨tag, .qpl pool⟩ → Attached t p → (∀ n : PoolNo, n.val = pool.toNat → (t.pool n).defined = false) →
      exec (.qpl p tag pool) s = .next (refusedWith t p .badPool 19)) ∧
    (∀ n : PoolNo, Taken s t p ⟨tag, .qpl pool⟩ → Attached t p → n.val = pool.toNat → (t.pool n).defined →
      exec (.qpl p tag pool) s = .next (answered t p .ok
        ([parentCode (t.pool n).parent, groupCode (t.pool n).group, (t.pool n).policy.code, (t.pool n).derateState.code] ++
          wordField (t.pool n).nominal ++ wordField (t.pool n).derated ++
          wordField (if (t.pool n).derateState = .derated then (t.pool n).derated else (t.pool n).nominal) ++
          wordField (t.pool n).charged ++ wordField ((t.pool n).effective - (t.pool n).charged) ++
          [BitVec.ofNat 8 (t.pool n).queue.length] ++ wordField (t.held p n) ++ wordField (t.quota p n)))) ∧
    (Taken s t p ⟨tag, .qdv⟩ →
      exec (.qdv p tag) s = .next (answered t p .ok
        (wordField t.profile.version ++ [t.startKind.code, BitVec.ofNat 8 t.restartCount] ++
          wordField t.window.remaining ++
          [if t.commissioning then 0x01 else 0x00, BitVec.ofNat 8 t.profile.tokenCount,
            BitVec.ofNat 8 (64 - t.liveGrants.length), BitVec.ofNat 8 (32 - t.liveRecords.length)] ++
          t.profile.siteLabel.toList)))

/-- QPT (R124, R186) is answered in every session state with the port's figures as they stand when it is taken, and then
clears MISSED; nothing else changes. A mask names exactly the tokens it stands for, token n by bit n, and stands in the
reply high byte first. -/
def Obligations.QueryPortReportsAndClearsMissed : Prop :=
  (∀ (m : Word) (n : TokenNo), maskField m = wordField m.toNat ∧ names m n = m.getLsbD n.val) ∧
  ∀ (s t : State) (p : Port) (tag : Byte) (held audit : Word), Taken s t p ⟨tag, .qpt⟩ → t.commissioning = false →
    (∀ n, names held n ↔ t.token n = .held p) → (∀ n, names audit n ↔ t.token n = .audit p) →
    exec (.qpt p tag) s = .next (answered (t.modPort p fun c => { c with missed := false }) p .ok
      ([BitVec.ofNat 8 (t.liveGrants.filter fun g => g.port == p).length,
          BitVec.ofNat 8 (t.liveRecords.filter fun r => r.port == p).length] ++
        maskField held ++ maskField audit ++ maskField (t.watch p) ++ wordField (t.session p).leasePeriod ++
        wordField ((t.port p).lease.getD 0) ++ [BitVec.ofNat 8 (t.port p).notices.length]))

/-! ## Tokens -/

/-- CLM (R67, R69, R70, R71, R188): NO_RIGHT, BAD_TOKEN and BAD_VALUE in this order; otherwise the conflicts are the tokens
of the mask HELD or AUDIT by another port or AUDIT by the requester. In mode ALL with a conflict nothing is claimed and the
answer is CONFLICT; in every other case each FREE token of the mask becomes HELD by the requester, and the answer is OK
without a conflict and PARTIAL with one. The watch set takes in the conflicts when the flag is set and loses the claimed. -/
def Obligations.ClaimTakesFreeTokens : Prop :=
  ∀ (s t : State) (p : Port) (tag : Byte) (mask : Word) (mode watch : Byte),
    Taken s t p ⟨tag, .clm mask mode watch⟩ → Attached t p →
    ((t.portProfile p).interlock = false → exec (.clm p tag mask mode watch) s = .next (refusedWith t p .noRight 4)) ∧
    ((t.portProfile p).interlock → MaskTooHigh t mask →
      exec (.clm p tag mask mode watch) s = .next (refusedWith t p .badToken 4)) ∧
    ((t.portProfile p).interlock → ¬ MaskTooHigh t mask → (1 < mode.toNat ∨ 1 < watch.toNat) →
      exec (.clm p tag mask mode watch) s = .next (refusedWith t p .badValue 4)) ∧
    ∀ conflicts claimed : Word, (t.portProfile p).interlock → ¬ MaskTooHigh t mask → mode.toNat ≤ 1 → watch.toNat ≤ 1 →
      (∀ n, names conflicts n ↔ names mask n ∧ t.token n ≠ .free ∧ t.token n ≠ .held p) →
      (∀ n, names claimed n ↔ names mask n ∧ t.token n = .free ∧ (mode = 1 ∨ conflicts = 0)) →
      ∃ u, exec (.clm p tag mask mode watch) s = .next (answered u p
          (if conflicts = 0 then .ok else if mode = 0 then .conflict else .partly)
          (maskField claimed ++ maskField conflicts)) ∧
        (∀ n, u.token n = if names claimed n then .held p else t.token n) ∧
        u = { t with
          tokens := u.tokens
          watches := t.watches.set p ((t.watch p ||| if watch = 1 then conflicts else 0) &&& ~~~claimed) }

/-- DRP (R67, R73, R77, R139, R189): the requester's tokens of the mask, HELD and AUDIT, become FREE as one freeing; each
port that watched some of them is handed one TOKEN_FREE with those, and they leave its watch set; the window closes if no
AUDIT holding is left. The answer names the tokens of the mask the requester held in neither state: OK with none, PARTIAL
otherwise. Nothing else changes. -/
def Obligations.DropFreesOwnTokens : Prop :=
  ∀ (s t : State) (p : Port) (tag : Byte) (mask : Word), Taken s t p ⟨tag, .drp mask⟩ → Attached t p →
    ((t.portProfile p).interlock = false → exec (.drp p tag mask) s = .next (refusedWith t p .noRight 2)) ∧
    ((t.portProfile p).interlock → MaskTooHigh t mask →
      exec (.drp p tag mask) s = .next (refusedWith t p .badToken 2)) ∧
    ∀ freed : Word, (t.portProfile p).interlock → ¬ MaskTooHigh t mask →
      (∀ n, names freed n ↔ names mask n ∧ (t.token n = .held p ∨ t.token n = .audit p)) →
      ∃ u, exec (.drp p tag mask) s = .next (answered u p (if mask &&& ~~~freed = 0 then .ok else .partly)
          (maskField (mask &&& ~~~freed))) ∧
        (∀ n, u.token n = if names freed n then .free else t.token n) ∧
        (∀ q, u.watch q = t.watch q &&& ~~~freed) ∧
        u.transit = t.transit ++ ((List.finRange 4).filter fun q => t.watch q &&& freed != 0).map
          (fun q => (q, Notice.tokenFree (t.watch q &&& freed))) ∧
        u = { t with tokens := u.tokens, watches := u.watches, transit := u.transit, window := windowAfter t u }

/-- CNT (R67, R75, R139, R190): the requester's AUDIT tokens of the mask become HELD and leave its watch set; the window
closes if no AUDIT holding is left. The answer names the other tokens of the mask: OK with none, PARTIAL otherwise. -/
def Obligations.ConfirmMakesTokensHeld : Prop :=
  ∀ (s t : State) (p : Port) (tag : Byte) (mask : Word), Taken s t p ⟨tag, .cnt mask⟩ → Attached t p →
    ((t.portProfile p).interlock = false → exec (.cnt p tag mask) s = .next (refusedWith t p .noRight 2)) ∧
    ((t.portProfile p).interlock → MaskTooHigh t mask →
      exec (.cnt p tag mask) s = .next (refusedWith t p .badToken 2)) ∧
    ∀ confirmed : Word, (t.portProfile p).interlock → ¬ MaskTooHigh t mask →
      (∀ n, names confirmed n ↔ names mask n ∧ t.token n = .audit p) →
      ∃ u, exec (.cnt p tag mask) s = .next (answered u p (if mask &&& ~~~confirmed = 0 then .ok else .partly)
          (maskField (mask &&& ~~~confirmed))) ∧
        (∀ n, u.token n = if names confirmed n then .held p else t.token n) ∧
        u = { t with
          tokens := u.tokens, watches := t.watches.set p (t.watch p &&& ~~~confirmed), window := windowAfter t u }

/-- UWT (R67, R76, R191): the tokens of the mask leave the requester's watch set, the answer is OK with the watch set that
remains, and nothing else changes; a freeing of those tokens afterwards hands the requester no notice. That a mask of 0 is
answered with the whole watch set, and not with 0, is the model's choice between R67 and R76 (log entry 30). -/
def Obligations.UnwatchRemovesTokens : Prop :=
  ∀ (s t : State) (p : Port) (tag : Byte) (mask : Word), Taken s t p ⟨tag, .uwt mask⟩ → Attached t p →
    ((t.portProfile p).interlock = false → exec (.uwt p tag mask) s = .next (refusedWith t p .noRight 2)) ∧
    ((t.portProfile p).interlock → MaskTooHigh t mask →
      exec (.uwt p tag mask) s = .next (refusedWith t p .badToken 2)) ∧
    ((t.portProfile p).interlock → ¬ MaskTooHigh t mask →
      ∃ u, exec (.uwt p tag mask) s = .next u ∧
        u = answered { t with watches := t.watches.set p (t.watch p &&& ~~~mask) } p .ok
          (maskField (t.watch p &&& ~~~mask)) ∧
        ∀ freed : Word, freed &&& ~~~mask = 0 →
          ((u.freeTokens freed).transit.filter fun x => x.1 == p) = u.transit.filter fun x => x.1 == p)

/-! ## Capacity changes and the supervisor's reset -/

/-- SCP (R13 to R17, R192): NO_RIGHT, LOCKED, BAD_POOL and BAD_VALUE in this order. Otherwise both figures are recorded. A
lowering of a NORMAL pool and a change that leaves the effective capacity do nothing else; a raise runs a service pass over
the pool's family; a lowering of a DERATED pool sheds it, which leaves its charged sum within the new derated capacity and
changes no queue. -/
def Obligations.CapacityChangeRecordsBothFigures : Prop :=
  ∀ (s t : State) (p : Port) (tag pool : Byte) (nominal derated : Word),
    Taken s t p ⟨tag, .scp pool nominal derated⟩ → Attached t p →
    ((t.portProfile p).supervise = false → exec (.scp p tag pool nominal derated) s = .next (refusedWith t p .noRight 0)) ∧
    ((t.portProfile p).supervise → t.profile.locked →
      exec (.scp p tag pool nominal derated) s = .next (refusedWith t p .locked 0)) ∧
    ((t.portProfile p).supervise → t.profile.locked = false →
      (∀ n : PoolNo, n.val = pool.toNat → (t.pool n).defined = false) →
      exec (.scp p tag pool nominal derated) s = .next (refusedWith t p .badPool 0)) ∧
    ∀ (n : PoolNo) (v : State), (t.portProfile p).supervise → t.profile.locked = false → n.val = pool.toNat →
      (t.pool n).defined →
      v = t.modPool n (fun q => { q with nominal := nominal.toNat, derated := derated.toNat }) →
      (nominal.toNat < derated.toNat →
        exec (.scp p tag pool nominal derated) s = .next (refusedWith t p .badValue 0)) ∧
      (derated.toNat ≤ nominal.toNat →
        ((v.pool n).effective = (t.pool n).effective ∨
          ((v.pool n).effective < (t.pool n).effective ∧ (t.pool n).derateState = .normal)) →
        exec (.scp p tag pool nominal derated) s = .next (answered v p .ok [])) ∧
      (derated.toNat ≤ nominal.toNat → (t.pool n).effective < (v.pool n).effective →
        ∃ u, exec (.scp p tag pool nominal derated) s = .next (answered u p .ok []) ∧ u = v.servicePass [v.rootOf n] ∧
          OnlyServes v u) ∧
      (derated.toNat ≤ nominal.toNat → (v.pool n).effective < (t.pool n).effective →
        (t.pool n).derateState = .derated → AgeLaw t → FamilyLaw t → ChargeLaw t →
        ∃ u, exec (.scp p tag pool nominal derated) s = .next (answered u p .ok []) ∧ DetachesBare (v.shed n) u ∧
          OnlySheds v u ∧
          (u.pool n).charged ≤ derated.toNat)

/-- RSR (R129, R168, R195): NO_RIGHT without SUPERVISE; otherwise the part enters reset, the transactions in progress are cut,
no answer is made, and nothing else changes before the core takes the warm reset. That a transaction of an earlier start keeps
NOT_READY through it is log entry 34. -/
def Obligations.RequestResetEntersReset : Prop :=
  ∀ (s t : State) (p : Port) (tag : Byte), Taken s t p ⟨tag, .rsr⟩ → Attached t p →
    ((t.portProfile p).supervise = false → exec (.rsr p tag) s = .next (refusedWith t p .noRight 0)) ∧
    ((t.portProfile p).supervise →
      ∃ u, exec (.rsr p tag) s = .next u ∧ CutsTransactions t u ∧ u = { t with ports := u.ports, phase := .resetTaking })

/-! ## Commissioning -/

/-- SRD, STG and CHK (R154, R155, R156, R196 to R198): NO_RIGHT outside commissioning state, whatever the port's rights. In
it, SRD answers the slot's kept state and the 16 bytes of the block, STG writes its 16 bytes into the block of the staging
buffer and no other byte, CHK answers the first fault of the buffer, in the order of R149, or that it has none; a slot above
3 or a block above 15 is BAD_VALUE. The slot states are coded as R174 gives. -/
def Obligations.StoreCommandsReadAndStage : Prop :=
  ([.blank, .sealed, .damaged] : List SlotState).map SlotState.code = [0x00, 0x01, 0x02] ∧
  ∀ (s t : State) (p : Port) (tag slot block : Byte) (data : List Byte),
    (Attached t p →
      (Taken s t p ⟨tag, .srd slot block⟩ → exec (.srd p tag slot block) s = .next (refusedWith t p .noRight 17)) ∧
      (Taken s t p ⟨tag, .stg block data⟩ → exec (.stg p tag block data) s = .next (refusedWith t p .noRight 0)) ∧
      (Taken s t p ⟨tag, .chk⟩ → exec (.chk p tag) s = .next (refusedWith t p .noRight 2)) ∧
      (Taken s t p ⟨tag, .sel⟩ → exec (.sel p tag) s = .next (refusedWith t p .noRight 3))) ∧
    (t.commissioning → Taken s t p ⟨tag, .srd slot block⟩ →
      ((3 < slot.toNat ∨ 15 < block.toNat) →
        exec (.srd p tag slot block) s = .next (refusedWith t p .badValue 17)) ∧
      ∀ i : SlotNo, i.val = slot.toNat → block.toNat ≤ 15 →
        exec (.srd p tag slot block) s = .next (answered t p .ok ((t.imageSlot i).state.code ::
          (List.range 16).map fun k => (t.imageSlot i).contents.read (16 * block.toNat + k)))) ∧
    (t.commissioning → Taken s t p ⟨tag, .stg block data⟩ → data.length = 16 →
      (15 < block.toNat → exec (.stg p tag block data) s = .next (refusedWith t p .badValue 0)) ∧
      (block.toNat ≤ 15 → MemoryLaw t →
        ∃ m : Memory, exec (.stg p tag block data) s = .next (answered { t with staging := m } p .ok []) ∧
          ∀ a, m.read a = if 16 * block.toNat ≤ a ∧ a < 16 * block.toNat + 16 then data.getD (a - 16 * block.toNat) 0
            else t.staging.read a)) ∧
    (t.commissioning → Taken s t p ⟨tag, .chk⟩ →
      ((∀ code offset, ¬ ImageFault t.staging code offset) → exec (.chk p tag) s = .next (answered t p .ok [0, 0])) ∧
      ∀ code offset, FirstFault t.staging code offset →
        exec (.chk p tag) s = .next (answered t p .stagingInvalid [BitVec.ofNat 8 code, BitVec.ofNat 8 offset]))

/-- SEL in commissioning state (R149, R157, R199): STAGING_INVALID with the detail code and offset of the first fault; NO_SLOT
when no slot is BLANK; otherwise the lowest BLANK slot is being sealed from a copy of bytes 0 to 252 of the buffer, and no
answer is made. -/
def Obligations.SealBeginsInLowestBlankSlot : Prop :=
  ∀ (s t : State) (p : Port) (tag : Byte), Taken s t p ⟨tag, .sel⟩ → t.commissioning →
    (∀ code offset, FirstFault t.staging code offset →
      exec (.sel p tag) s = .next (answered t p .stagingInvalid [0, BitVec.ofNat 8 code, BitVec.ofNat 8 offset])) ∧
    ((∀ code offset, ¬ ImageFault t.staging code offset) → (∀ i, (t.imageSlot i).state ≠ .blank) →
      exec (.sel p tag) s = .next (refusedWith t p .noSlot 3)) ∧
    ∀ i, (∀ code offset, ¬ ImageFault t.staging code offset) → (t.imageSlot i).state = .blank →
      (∀ j, j < i → (t.imageSlot j).state ≠ .blank) →
      ∃ image : Memory, exec (.sel p tag) s = .next { t with sealing := some { slot := i, image := image } } ∧
        ∀ a, image.read a = if a < 253 then t.staging.read a else 0xFF

/-- SEAL_END (R144, R148, R157): a valid image programmed whole into a slot that reads blank leaves it SEALED, holding the
image, its CRC-16 and the seal mark, and SEL is answered OK with the slot number. A read-back that differs ends the seal at
that byte, no later byte touched, with the slot DAMAGED and SEL answered SEAL_FAILED. Bits found turned at the classification
(log entry 31) leave the slot what that gives. Every byte programmed, misprogrammed or found otherwise has bits of the one
before turned from 1 to 0 and none from 0 to 1. The reply is placed on P0, the processing ends, and nothing else changes. The
256 writes are, in order, bytes 0 to 252 of the image, the CRC-16 of them in bytes 254 and 255, and the mark 0x5A in byte 253;
the CRC-16 has the check value of R148. That a seal does not end in a way the bytes of its slot rule out is the model's choice
(log entry 11), and so is that the write of a byte whose intended value is 0xFF can turn bits of it (log entry 35). -/
def Obligations.SealEndsSealedOrDamaged : Prop :=
  (crc16 [0x31, 0x32, 0x33, 0x34, 0x35, 0x36, 0x37, 0x38, 0x39] = 0x29B1 ∧
    ∀ m : Memory, imageCrc m = crc16 ((List.range 253).map fun a => m.read a) ∧
      (∀ k, k < 253 → sealAddress k = k ∧ sealByte m k = m.read k) ∧
      sealAddress 253 = 254 ∧ sealByte m 253 = (imageCrc m).extractLsb' 8 8 ∧
      sealAddress 254 = 255 ∧ sealByte m 254 = (imageCrc m).extractLsb' 0 8 ∧
      sealAddress 255 = 253 ∧ sealByte m 255 = 0x5A) ∧
  ∀ (s : State) (w : Seal) (r : Request), s.phase = .running ∨ s.phase = .resetTaking → s.sealing = some w →
    (s.port 0).processing = some r → MemoryLaw s → w.image.wf →
    let before := (s.imageSlot w.slot).contents
    let readsBack := fun n : Nat => ∀ j, j < n → before.read (sealAddress j) &&& sealByte w.image j = sealByte w.image j
    let ended := fun (m : Memory) (kept : SlotState) => ({ s with
      slots := s.slots.set w.slot { contents := m, state := kept }, sealing := none } : State).modPort 0 fun c =>
        { c with
          processing := none
          reply := some (replyIn s 0 (if kept = .sealed then .ok else .sealFailed) r.tag [BitVec.ofNat 8 w.slot, 0, 0]) }
    ((∀ code offset, ¬ ImageFault w.image code offset) → before.isBlank →
      ∃ m : Memory, (∀ a, a < 253 → m.read a = w.image.read a) ∧ m.read 253 = 0x5A ∧
        imageWord m 254 = (imageCrc w.image).toNat ∧ classify m = .sealed ∧
        exec (.sealEnd .whole) s = .next (ended m .sealed)) ∧
    (∀ (k : Nat) (v : Byte), k < 256 → readsBack k → before.read (sealAddress k) &&& v ≠ sealByte w.image k →
      ∃ m : Memory, (∀ j, j < k → m.read (sealAddress j) = before.read (sealAddress j) &&& sealByte w.image j) ∧
        m.read (sealAddress k) = before.read (sealAddress k) &&& v ∧
        (∀ j, k < j → j < 256 → m.read (sealAddress j) = before.read (sealAddress j)) ∧
        exec (.sealEnd (.readBackDiffers k v)) s = .next (ended m .damaged)) ∧
    (∀ turned : List (Nat × Byte), (∀ c ∈ turned, c.1 < 256) → readsBack 256 →
      ∃ m : Memory, (∀ j, j < 256 → m.read (sealAddress j) =
          (turned.filter fun c => c.1 == sealAddress j).foldl (fun b c => b &&& c.2)
            (before.read (sealAddress j) &&& sealByte w.image j)) ∧
        exec (.sealEnd (.foundOtherwise turned)) s =
          .next (ended m (if classify m = .sealed then .sealed else .damaged))) ∧
    (¬ readsBack 256 → exec (.sealEnd .whole) s = .next s ∧
      ∀ turned, exec (.sealEnd (.foundOtherwise turned)) s = .next s) ∧
    ∀ (k : Nat) (v : Byte), ¬ readsBack k ∨ before.read (sealAddress k) &&& v = sealByte w.image k →
      exec (.sealEnd (.readBackDiffers k v)) s = .next s

/-- Validation passes exactly an image without a fault of R149's table, and otherwise finds the first fault in the order of
the offsets, at one offset in the table's order. An image that passes loads the profile whose every field is the one at its
offset (R146, R147), which satisfies law L6 and keeps every capacity, time and bound in its range (R149). Two-byte fields are
high byte first. A slot is BLANK when its 256 bytes read 0xFF, SEALED when it is not and has mark, CRC-16 and a valid image,
and DAMAGED otherwise (R144). -/
def Obligations.ValidImagesLoadLawfulProfiles : Prop :=
  ∀ m : Memory,
    (validate m = none → ProfileInRange (loadProfile m)) ∧
    (validate m = none ↔ ∀ code offset, ¬ ImageFault m code offset) ∧
    (∀ (code : Byte) (offset : Nat), validate m = some (code, offset) ↔ FirstFault m code.toNat offset) ∧
    (validate m = none → LoadsImage m (loadProfile m)) ∧
    (∀ i, imageWord m i = 256 * (m.read i).toNat + (m.read (i + 1)).toNat) ∧
    (let blank := ∀ a, a < 256 → m.read a = 0xFF
     let whole := m.read 253 = 0x5A ∧ imageWord m 254 = (imageCrc m).toNat ∧ ∀ code offset, ¬ ImageFault m code offset
     (classify m = .blank ↔ blank) ∧ (classify m = .sealed ↔ ¬ blank ∧ whole) ∧
       (classify m = .damaged ↔ ¬ blank ∧ ¬ whole))

/-! ## Time, lines and events -/

/-- A tick (R58, R82, R105, R137): what an earlier tick left due has come about, and what this one brings to 0 is due, a
step of its own (the list of what is due, and when it comes about, are log entry 6); so every running lease counter and every
deadline is lowered by 1, and the remaining audit time while the window is open; exactly those that this brings to 0 have their
expiry due, each once. What disturbed the image slots while the part ran, an operand, turns bits of their contents from 1 to 0
and leaves each slot's kept state (R144, R145; that a tick brings it is log entry 25). Nothing else changes but the lines, which
UNCONFIGURED are not sampled. CLKIN is divided into ticks by the clock of the loaded copy, and by 16000 kHz while no image is
loaded: from power on to the end of the cold start, in a warm start with a bad signature, UNCONFIGURED and in commissioning
state (R152; log entry 16). -/
def Obligations.TickLowersEveryCounter : Prop :=
  (Profile.unconfigured.clock = 16000 ∧ ∀ s : State, s.tickDivider =
    if s.phase = .off ∨ s.phase = .coldWaiting ∨ s.phase = .coldStarting ∨
      (s.phase = .warmStarting ∧ s.signature = .differing) then 16000 else s.profile.clock) ∧
  ∀ (s : State) (sagA sagB : Level) (disturbed : List Disturbance), s.phase = .running →
    ∃ u, exec (.tick ⟨sagA, sagB⟩ disturbed) s = .next u ∧
      u = { s.settle with
        ports := u.ports, waits := u.waits, window := u.window, lineA := u.lineA, lineB := u.lineB, due := u.due
        slots := u.slots } ∧
      (disturbed = [] → u.slots = s.slots) ∧ (∀ i, (u.imageSlot i).state = (s.imageSlot i).state) ∧
      (MemoryLaw s → ∀ i a, (u.imageSlot i).contents.read a =
        (disturbed.filter fun d => d.slot == i && d.address.val == a).foldl (fun b d => b &&& d.kept)
          ((s.imageSlot i).contents.read a)) ∧
      (∀ p, u.port p = { s.settle.port p with lease := (s.settle.port p).lease.map (· - 1) }) ∧
      (∀ i, u.waitSlot i = { s.settle.waitSlot i with
        record := (s.settle.record? i).map fun r => { r with deadline := r.deadline.map (· - 1) } }) ∧
      (s.settle.window.isOpen → u.window = { isOpen := true, remaining := s.settle.window.remaining - 1 }) ∧
      (s.settle.window.isOpen = false → u.window = s.settle.window) ∧
      (∀ p, .lease p ∈ u.due ↔ (s.settle.port p).lease = some 1) ∧
      (.audit ∈ u.due ↔ s.settle.window.isOpen ∧ s.settle.window.remaining = 1) ∧
      (∀ ticket, .deadline ticket ∈ u.due ↔ ∃ i, ∃ r ∈ s.settle.record? i, r.deadline = some 1 ∧
        ticket = (s.settle.waitSlot i).generation * 32 + i.val) ∧
      u.due.Nodup ∧
      (s.profile.version = 0 → u.lineA = s.settle.lineA ∧ u.lineB = s.settle.lineB ∧
        ∀ g, .lineAsserted g ∉ u.due ∧ .lineDeasserted g ∉ u.due ∧ .qualify g ∉ u.due ∧ .restore g ∉ u.due)

/-- The sampling of a line on a tick (R82, R84, R95, R96): at the first sample after a start, the state of R96 (a line not yet
sampled is log entry 19); later, a level that differs is seen and a line change due, the timer kept; an equal level lowers a
running timer by 1, and at 0 its expiry is due. No other line change or timer expiry is due. What an earlier tick left due has
come about first; the list of what is due is log entry 6. -/
def Obligations.TickSamplesEachLine : Prop :=
  ∀ (s : State) (sagA sagB : Level) (disturbed : List Disturbance), s.phase = .running → s.profile.version ≠ 0 →
    ∃ u, exec (.tick ⟨sagA, sagB⟩ disturbed) s = .next u ∧ ∀ g : SagGroup,
      let level := match g with | .a => sagA | .b => sagB
      let before := s.settle.line g
      let isDerated := ∃ n, (s.settle.pool n).defined ∧ (s.settle.pool n).group = some g ∧
        (s.settle.pool n).derateState = .derated
      (before.sampled = false →
        (isDerated → level = .high → u.line g = { state := .asserted, seen := level, sampled := true, timer := none }) ∧
        (isDerated → level = .low → u.line g =
          { state := .restoring, seen := level, sampled := true, timer := some (s.settle.sagTimes g).restore }) ∧
        (¬ isDerated → level = .high → u.line g =
          { state := .qualifying, seen := level, sampled := true, timer := some (s.settle.sagTimes g).qualify }) ∧
        (¬ isDerated → level = .low → u.line g = { state := .clear, seen := level, sampled := true, timer := none })) ∧
      (before.sampled = true → before.seen ≠ level → u.line g = { before with seen := level } ∧
        (if level = .high then Due.lineAsserted g else Due.lineDeasserted g) ∈ u.due) ∧
      (before.sampled = true → before.seen = level → u.line g = { before with timer := before.timer.map (· - 1) } ∧
        (before.timer = some 1 → (if before.state = .restoring then Due.restore g else Due.qualify g) ∈ u.due)) ∧
      (.lineAsserted g ∈ u.due ↔ before.sampled = true ∧ before.seen = .low ∧ level = .high) ∧
      (.lineDeasserted g ∈ u.due ↔ before.sampled = true ∧ before.seen = .high ∧ level = .low) ∧
      (.restore g ∈ u.due ↔
        before.sampled = true ∧ before.seen = level ∧ before.timer = some 1 ∧ before.state = .restoring) ∧
      (.qualify g ∈ u.due ↔
        before.sampled = true ∧ before.seen = level ∧ before.timer = some 1 ∧ before.state ≠ .restoring)

/-- The expiries a tick made due (R58, R105, R107, R137): LEASE_EXPIRY stops the counter and hands the port's lapse event on
after what the port handed on before; DEADLINE_EXPIRY makes the record's expiry event; AUDIT_TIMER_EXPIRY makes the
audit-end event. Nothing else changes. What is still due when a later step comes comes about before it, in the order the
tick made it (log entry 6). -/
def Obligations.ExpiriesMakeTheirEvents : Prop :=
  ∀ (s : State) (p : Port) (ticket : Word), s.phase = .running →
    (.lease p ∈ s.due → exec (.leaseExpiry p) s = .next { s.modPort p (fun c =>
      { c with lease := none, handedOn := c.handedOn ++ [.lapse] }) with due := s.due.erase (.lease p) }) ∧
    (.deadline ticket.toNat ∈ s.due → exec (.deadlineExpiry ticket) s = .next { s with
      expiryEvents := s.expiryEvents ++ [ticket.toNat], due := s.due.erase (.deadline ticket.toNat) }) ∧
    (.audit ∈ s.due → exec .auditTimerExpiry s = .next { s with auditEndMade := true, due := s.due.erase .audit }) ∧
    (s.due = [] → s.settle = s) ∧
    ∀ d rest, s.due = d :: rest → s.settle = (({ s with due := rest } : State).runDue d).settle

/-- The line state machine (R83): asserting takes CLEAR to QUALIFYING with its timer loaded and RESTORING to ASSERTED;
deasserting takes QUALIFYING to CLEAR and ASSERTED to RESTORING with its timer loaded; the qualify timer's expiry takes
QUALIFYING to ASSERTED with a derate event sent, the restore timer's RESTORING to CLEAR with a restore event. That a line
change or an expiry is on a list of what is due, and goes off it as it comes about, is the model's (log entry 6). -/
def Obligations.LinesMoveAsTheTableGives : Prop :=
  ∀ (s : State) (g : SagGroup), s.phase = .running →
    let move := fun (d : Due) (state : LineState) (timer : Option Nat) (events : List SagEvent) =>
      { (s.setLine g { s.line g with state := state, timer := timer }) with
        sagEvents := s.sagEvents ++ events, due := s.due.erase d }
    (.lineAsserted g ∈ s.due →
      ((s.line g).state = .clear → exec (.lineAsserted g) s =
        .next (move (.lineAsserted g) .qualifying (some (s.sagTimes g).qualify) [])) ∧
      ((s.line g).state = .restoring → exec (.lineAsserted g) s = .next (move (.lineAsserted g) .asserted none []))) ∧
    (.lineDeasserted g ∈ s.due →
      ((s.line g).state = .qualifying → exec (.lineDeasserted g) s = .next (move (.lineDeasserted g) .clear none [])) ∧
      ((s.line g).state = .asserted → exec (.lineDeasserted g) s =
        .next (move (.lineDeasserted g) .restoring (some (s.sagTimes g).restore) []))) ∧
    (.qualify g ∈ s.due → (s.line g).state = .qualifying →
      exec (.qualifyTimerExpiry g) s = .next (move (.qualify g) .asserted none [.derate g])) ∧
    (.restore g ∈ s.due → (s.line g).state = .restoring →
      exec (.restoreTimerExpiry g) s = .next (move (.restore g) .clear none [.restore g]))

/-- A derate event that is the first of its line (R85, R86, R91, law L2): each defined pool of the group in ascending number
is DERATED and shed; then every one is within its derated capacity, no other pool's derate state moves, and nothing moves but
what sheds touch. A shed ranks its candidates by R88, trims them in that order with a TRIMMED notice each and never below the
floor (R89), and revokes in that order, with a REVOKED notice of cause SHED each, only while excess is left (R90, R91). -/
def Obligations.DerateLeavesGroupWithinCapacity : Prop :=
  (∀ (s : State) (n : PoolNo), AgeLaw s → RanksCandidates s n (s.shedRanking n) ∧
    ShedsInOrder s (s.shed n) (s.shedRanking n) ((s.pool n).charged - (s.pool n).effective) ∧
    (FamilyLaw s → ChargeLaw s → ChargeLaw (s.shed n))) ∧
  ∀ (s t : State) (g : SagGroup), Free s t → (t.sagEvents.find? fun e => State.eventGroup e == g) = some (.derate g) →
    AgeLaw t → FamilyLaw t → ChargeLaw t →
    ∃ v u, exec (.derateEvent g) s = .next u ∧
      v = { t with
        sagEvents := t.sagEvents.erase (.derate g)
        pools := v.pools } ∧
      (∀ n, v.pool n = { t.pool n with
        derateState := if (t.pool n).defined ∧ (t.pool n).group = some g then .derated else (t.pool n).derateState }) ∧
      DetachesBare (((List.finRange 8).filter fun n => (t.pool n).defined && (t.pool n).group == some g).foldl
        (fun x n => (x.modPool n fun q => { q with derateState := .derated }).shed n)
        { t with sagEvents := t.sagEvents.erase (.derate g) }) u ∧
      OnlySheds v u ∧
      ∀ n, (t.pool n).defined → (t.pool n).group = some g → (u.pool n).charged ≤ (u.pool n).derated

/-- A restore event that is the first of its line (R92): every defined pool of the group is NORMAL; then one pass serves the
families of those that were DERATED, and nothing moves but what it touches. -/
def Obligations.RestoreReturnsGroupToNominal : Prop :=
  ∀ (s t : State) (g : SagGroup), Free s t → (t.sagEvents.find? fun e => State.eventGroup e == g) = some (.restore g) →
    ∃ v u roots, exec (.restoreEvent g) s = .next u ∧ u = v.servicePass roots ∧
      (∀ n, n ∈ roots ↔ ∃ m, (t.pool m).defined = true ∧ (t.pool m).group = some g ∧ (t.pool m).derateState = .derated ∧
        t.rootOf m = n) ∧
      v = { t with
        sagEvents := t.sagEvents.erase (.restore g)
        pools := v.pools } ∧
      (∀ n, v.pool n = { t.pool n with
        derateState := if (t.pool n).defined ∧ (t.pool n).group = some g then .normal else (t.pool n).derateState }) ∧
      OnlyServes v u

/-- The audit-end event (R139, R140): taken with the window closed it changes nothing but that it is taken; with the window
open no AUDIT grant and no AUDIT token is left, the window is closed, no port is RECOVERING and every other session stays,
and every ACTIVE grant and HELD token stays. REVOKED cause AUDIT_END goes to each ATTACHED owner in age-list order, then one
TOKEN_FREE to each watcher of the freed tokens; then a pass serves the families of the freed grants and, if there was one,
every marked family. -/
def Obligations.AuditEndReclaimsAuditHoldings : Prop :=
  ∀ (s t v : State), Free s t → t.auditEndMade = true → v = { t with auditEndMade := false } →
    (t.window.isOpen = false → exec .auditEnd s = .next v) ∧
    (t.window.isOpen → AgeLaw t →
      ∃ w u roots, exec .auditEnd s = .next u ∧ OnlyReleases v w none ∧
        (let freed := maskOf fun n => match t.token n with | .audit _ => true | _ => false
        w.transit = t.transit ++
          (t.ageList.filterMap fun i => (t.grant? i).bind fun g =>
            if g.state = .audit ∧ (t.session g.port).state = .attached then
              some (g.port, .revoked ((t.grantSlot i).generation * 64 + i.val) .auditEnd)
            else none) ++ tokenFreeNotices t freed (fun _ => true) ∧
        ∀ q, w.watch q = t.watch q &&& ~~~freed) ∧
        w.waits = t.waits ∧ w.marks = t.marks ∧
        w.ageList = (t.ageList.filter fun i => !(t.grant? i).any fun g => g.state == .audit) ∧
        (∀ n, (w.pool n).queue = (t.pool n).queue) ∧ (FamilyLaw t → ChargeLaw t → ChargeLaw w) ∧
        (∀ i, w.grantSlot i = if (t.grant? i).any (fun g => g.state == .audit) then
          { generation := generationAfter 1023 (t.grantSlot i).generation, grant := none } else t.grantSlot i) ∧
        (∀ n, n ∈ roots ↔ ∃ i, ∃ g ∈ t.grant? i, g.state = .audit ∧ (t.rootOf g.pool = n ∨ t.mark n = true)) ∧
        u = w.servicePass roots ∧ OnlyServes w u ∧ OnlyReleases v u none ∧ u.anyAudit = false ∧
        u.window = { isOpen := false, remaining := 0 } ∧
        (∀ n, u.token n = match t.token n with | .audit _ => .free | x => x) ∧
        (∀ p, u.session p = if (t.session p).state = .recovering then { t.session p with state := .detached }
          else t.session p) ∧
        ∀ i, ∀ g ∈ t.grant? i, g.state = .active → u.grant? i = some g)

/-! ## The pool figures and the service pass -/

/-- The available room (R7): of a root its room, of a branch the smaller of its room and the root's; a branch of an overdrawn
root has 0; and what is charged to a branch moves the available room of no pool but itself. The effective capacity is the
derated one of a DERATED pool and the nominal one of another; the room is what of it is not charged. -/
def Obligations.AvailableRoomOfRootAndBranch : Prop :=
  ∀ (s : State) (n : PoolNo),
    (s.pool n).effective = (if (s.pool n).derateState = .derated then (s.pool n).derated else (s.pool n).nominal) ∧
    (s.pool n).room = (s.pool n).effective - (s.pool n).charged ∧
    ((s.pool n).parent = none → s.available n = (s.pool n).room) ∧
    (∀ r ∈ (s.pool n).parent, s.available n = min (s.pool n).room (s.pool r).room ∧
      ((s.pool r).effective < (s.pool r).charged → s.available n = 0)) ∧
    ∀ (m : PoolNo) (k : Nat), m ≠ n → (s.pool m).parent ≠ some n →
      (s.modPool n fun q => { q with charged := k }).available m = s.available m

/-- The service pass (R9, R47 to R55, law L3): it leaves no pool overdrawn that was not, grants no port beyond its quota, frees
no grant, and moves nothing but what it touches. It serves its families in ascending order of root, each once; of a family,
its mark cleared, first the root, then the branches in ascending order; and of a pool, its queue's records from the head by
its policy, as `ServesRecord` gives. So a pool whose queue's head cannot be granted is left as it is when ORDERED (R51), and
a FIT pool when none of its records can be granted (R52). -/
def Obligations.ServicePassGrantsWithinRoom : Prop :=
  (∀ (s : State) (roots : List PoolNo), FamilyLaw s → QuotaLaw s →
    OnlyServes s (s.servicePass roots) ∧ QuotaLaw (s.servicePass roots) ∧
      ∀ n, (s.pool n).charged ≤ (s.pool n).effective →
        ((s.servicePass roots).pool n).charged ≤ ((s.servicePass roots).pool n).effective) ∧
  (∀ (s : State) (roots : List PoolNo),
    s.servicePass roots = ((List.finRange 8).filter fun n => roots.contains n).foldl State.serveFamily s) ∧
  (∀ (s : State) (root : PoolNo), s.serveFamily root =
    (root :: (List.finRange 8).filter fun n => (s.pool n).defined && (s.pool n).parent == some root).foldl
      (State.servePool root) (s.setMark root false)) ∧
  (∀ (s : State) (fam n : PoolNo), State.servePool fam s n =
    if (s.pool n).policy = .ordered then State.serveOrdered fam s (s.pool n).queue
    else State.serveFit fam s (s.pool n).queue) ∧
  (∀ (s : State) (fam : PoolNo), State.serveOrdered fam s [] = s ∧ State.serveFit fam s [] = s) ∧
  (∀ (s : State) (fam : PoolNo) (w : WaitNo) (rest : List WaitNo) (r : WaitRecord), s.record? w = some r →
    ServesRecord s fam w rest r) ∧
  ∀ (s : State) (fam n : PoolNo),
    let stays := fun w => ∃ r ∈ s.record? w, r.floor ≤ s.quota r.port r.pool - s.held r.port r.pool ∧
      (∃ i, s.grant? i = none) ∧
      min r.max (min (s.available r.pool) (s.quota r.port r.pool - s.held r.port r.pool)) < r.floor
    ((s.pool n).policy = .ordered → (∀ w ∈ (s.pool n).queue.head?, stays w) → State.servePool fam s n = s) ∧
    ((s.pool n).policy = .fit → (∀ w ∈ (s.pool n).queue, stays w) → State.servePool fam s n = s)

/-! ## Pins, resets and starts -/

/-- RSTN, power and what they do at once (R130, R150, R158, R168): RSTN going low enters reset from a running part with its
transactions cut, and abandons a start; going high it lets a held start begin; power brings the part to its cold start, or
to wait for RSTN, with every reply, notice and request of before gone and no work waiting (R127, R172); losing power stops it,
a seal in progress aborted. RSTN_LOW while RSTN is low, and POWER_ON while power is applied, leave the part as it is (log
entry 2). That a transaction of an earlier start keeps NOT_READY through the next reset is log entry 34; that RSTN low and the
reset of an RSR merge is log entry 22; that losing power leaves the tables, makes the signature differ and cuts transactions,
but for one that shifts NOT_READY, is log entry 17; when a write cut before its end counts as programming begun is log entry
12; that a cut may lie past a disturbed byte is log entry 33. -/
def Obligations.PinsAndPowerMoveThePhase : Prop :=
  ∀ (s : State) (cut : SealCut),
    (s.rstn = .low → exec .rstnLow s = .next s) ∧
    (s.rstn = .high → ∃ u, exec .rstnLow s = .next u ∧
      u = { s with
        rstn := .low, ports := u.ports
        phase := match s.phase with
          | .running => .resetTaking
          | .warmStarting => .inReset
          | .coldStarting => .coldWaiting
          | x => x } ∧
      (s.phase = .running → CutsTransactions s u) ∧ (s.phase ≠ .running → u.ports = s.ports)) ∧
    (exec .rstnHigh s = .next { s with
      rstn := .high
      phase := match s.phase with
        | .inReset => .warmStarting
        | .coldWaiting => .coldStarting
        | x => x }) ∧
    (s.phase = .off → ∃ u, exec .powerOn s = .next u ∧ FreshPorts s u ∧ NoWorkWaiting u ∧
      u = { s with
        ports := u.ports, answering := none, transit := [], expiryEvents := [], sagEvents := [], auditEndMade := false
        due := [], phase := if s.rstn = .low then .coldWaiting else .coldStarting }) ∧
    (s.phase ≠ .off → exec .powerOn s = .next s) ∧
    (s.phase ≠ .off → MemoryLaw s → ∃ u, exec (.powerInterruption cut) s = .next u ∧ CutsTransactions s u ∧
      AbortsSeal s u cut ∧ u = { s with
        ports := u.ports, slots := u.slots, sealing := none, phase := .off, signature := .differing })

/-- The core takes the warm reset (R128, R129, R130, R136, R158): work not yet taken is discarded, every reply slot, copy,
notice queue, MISSED flag and lease counter is emptied, a seal is aborted, and the tables stand; the warm start begins
unless RSTN is low. That the counters stop here, and not only at the start, is log entry 28; when a write cut before
its end counts as programming begun is log entry 12; that a cut may lie past a disturbed byte is log entry 33. -/
def Obligations.WarmResetDiscardsUntakenWork : Prop :=
  ∀ (s : State) (cut : SealCut), s.phase = .resetTaking → MemoryLaw s →
    ∃ u, exec (.warmReset cut) s = .next u ∧ FreshPorts s u ∧ NoWorkWaiting u ∧ AbortsSeal s u cut ∧
      u = { s with
        ports := u.ports, answering := none, transit := [], expiryEvents := [], sagEvents := [], auditEndMade := false
        due := [], slots := u.slots, sealing := none, phase := if s.rstn = .low then .inReset else .warmStarting }

/-- A warm start with a good signature (R38, R65, R80, R116, R133, R134, R137): every live grant and held token is AUDIT,
every record is discarded with its slot's generation advanced, a port with an AUDIT holding is RECOVERING and every other
DETACHED, the window opens with the full audit time if any AUDIT holding exists, and the restart counter advances to 255 at
most. Pools keep every field but the queue; profile and age list stay. That both lines are CLEAR and not yet sampled until the
first tick sets them from the derate states by R96 is the model's reading of R134 step 7 (log entry 19). -/
def Obligations.WarmStartTurnsHoldingsToAudit : Prop :=
  ∀ s : State, s.phase = .warmStarting → s.signature = .matching →
    ∃ u, exec (.warmStart false) s = .next u ∧ FreshPorts s u ∧ NoWorkWaiting u ∧ StoreAtStart s u ∧
      (∀ i, u.grantSlot i = { s.grantSlot i with grant := (s.grant? i).map fun g => { g with state := .audit } }) ∧
      (∀ n, u.token n = match s.token n with | .held q => .audit q | x => x) ∧
      (∀ i, u.waitSlot i = { record := none, generation :=
        if (s.record? i).isSome then
          (if (s.waitSlot i).generation = 2047 then 1 else (s.waitSlot i).generation + 1)
        else (s.waitSlot i).generation }) ∧
      (∀ n, u.pool n = { s.pool n with queue := [] }) ∧ (∀ n, u.mark n = false) ∧ (∀ p, u.watch p = 0) ∧
      (∀ p, u.session p =
        { state := if u.holdsAudit p then .recovering else .detached, leasePeriod := 0, lapseCause := none }) ∧
      u.window = (if u.anyAudit then { isOpen := true, remaining := s.profile.auditTime }
        else { isOpen := false, remaining := 0 }) ∧
      u.restartCount = (if s.restartCount < 255 then s.restartCount + 1 else 255) ∧ u.startKind = .warm ∧
      u.signature = .matching ∧ u.lastTaken = 3 ∧
      (∀ g, u.line g = { state := .clear, seen := .low, sampled := false, timer := none }) ∧
      u.phase = .running ∧ u.profile = s.profile ∧ u.ageList = s.ageList ∧ u.commissioning = s.commissioning

/-- A cold start, and a warm start with a bad signature (R20, R37, R64, R79, R115, R133, R135, R150 to R153, R172): every
table takes its cold-start value. COLD_START samples PROG, which high enters commissioning state and loads nothing;
WARM_START does not, and leaves commissioning state as it is. That every disturbance of the retained area is detected is log
entry 9; what the lines hold until their first sample, and that it is marked, is log entry 19. -/
def Obligations.ColdAndLostStartsClearTables : Prop :=
  ∀ (s : State) (prog : Level) (disturbed : Bool),
    (s.phase = .coldStarting →
      ∃ u x, exec (.coldStart prog) s = .next u ∧ FreshPorts s u ∧ NoWorkWaiting u ∧ StoreAtStart s u ∧
        ColdTables u x ∧ u.startKind = .cold ∧ (u.commissioning = true ↔ prog = .high) ∧
        (prog = .high → x = Profile.unconfigured) ∧ (prog = .low → LoadsFrom s x)) ∧
    (s.phase = .warmStarting → (s.signature = .differing ∨ disturbed = true) →
      ∃ u x, exec (.warmStart disturbed) s = .next u ∧ FreshPorts s u ∧ NoWorkWaiting u ∧ StoreAtStart s u ∧
        ColdTables u x ∧ u.startKind = .warmLost ∧ u.commissioning = s.commissioning ∧
        (s.commissioning → x = Profile.unconfigured) ∧ (s.commissioning = false → LoadsFrom s x))

/-! ## Invariants that every step keeps -/

/-- Every step keeps the slots and the staging buffer in the canonical form of a memory and turns bits of the slots from 1 to
0 and none from 0 to 1; it keeps the notice queues to at most 8 notices (R117), and the watch sets to tokens that are
HELD or AUDIT and none that the port holds HELD (R71). That bits turn from 1 to 0 alone is R144's of programming; of the
disturbances that a TICK carries, of which the spec does not say it, it is the model's choice (log entry 25), and so it is of
bits found turned at the end of a seal (log entry 31). -/
def Obligations.EveryStepKeepsStoreNoticeAndWatchLaws : Prop :=
  ∀ s t : State, step s = .next t →
    (MemoryLaw s → MemoryLaw t ∧ ∀ i, OnlyProgrammed (s.imageSlot i).contents (t.imageSlot i).contents) ∧
    (NoticeLaw s → NoticeLaw t) ∧ (WatchLaw s → WatchLaw t)

/-- Every step keeps the grant table, the age list, the wait table and the queues lawful (L4, L9, L11; R22, R26, R39, R42,
R43). -/
def Obligations.EveryStepKeepsTableLaws : Prop :=
  ∀ s t : State, step s = .next t →
    GrantLaw s → AgeLaw s → WaitLaw s → QueueLaw s → WaitLimitLaw s →
    GrantLaw t ∧ AgeLaw t ∧ WaitLaw t ∧ QueueLaw t ∧ WaitLimitLaw t

/-- Every step keeps the family structure (L6) and every charged sum equal to the units charged to the pool (L1). -/
def Obligations.EveryStepKeepsChargedSums : Prop :=
  ∀ s t : State, step s = .next t → FamilyLaw s → ChargeLaw s → FamilyLaw t ∧ ChargeLaw t

/-- Every step keeps each DERATED pool within its derated capacity (L2), and each port within its quotas (L5). -/
def Obligations.EveryStepKeepsCapacityAndQuota : Prop :=
  ∀ s t : State, step s = .next t → FamilyLaw s → ChargeLaw s → AgeLaw s → DerateLaw s → QuotaLaw s →
    DerateLaw t ∧ QuotaLaw t

/-- Every step keeps what a port may hold in each session state (L8) and the audit window open exactly while an AUDIT holding
exists (L10). -/
def Obligations.EveryStepKeepsSessionAndWindowLaws : Prop :=
  ∀ s t : State, step s = .next t → AgeLaw s → SessionLaw s → WindowLaw s → SessionLaw t ∧ WindowLaw t

/-- Every step keeps the grant table, the wait table and the token set empty in commissioning state (L12). -/
def Obligations.EveryStepKeepsCommissioningLaw : Prop :=
  ∀ s t : State, step s = .next t → CommissioningLaw s → CommissioningLaw t

end
end

