-- ==== Sys2Proof/Laws/Frames.lean ====
section
/-! SUPPORT. Reading fields and whole frames: what the examination finds in a frame built with its CRC-8. -/

namespace Sys2Proof

/-- A field's two bytes read back as the field (R163). -/
theorem wordBytes_join (x : Word) : (x.extractLsb' 8 8 ++ x.extractLsb' 0 8 : Word) = x := by
  apply BitVec.eq_of_getLsbD_eq
  intro i hi
  simp only [BitVec.getLsbD_append, BitVec.getLsbD_extractLsb']
  by_cases h : i < 8
  · simp [h]
  · have h2 : i - 8 < 8 := by omega
    have h3 : 8 + (i - 8) = i := by omega
    simp [h, h2, h3]

theorem wordAt_wordBytes_append (x : Word) (l : List Byte) : wordAt (wordBytes x ++ l) 0 = x := by
  simp only [wordAt, wordBytes, List.cons_append, List.getD_cons_zero, List.getD_cons_succ, List.nil_append, Nat.zero_add]
  exact wordBytes_join x

theorem wordAt_wordBytes (x : Word) : wordAt (wordBytes x) 0 = x := by
  have h := wordAt_wordBytes_append x []
  rwa [List.append_nil] at h

/-- Reading past a byte. -/
theorem wordAt_cons (b : Byte) (l : List Byte) (i : Nat) : wordAt (b :: l) (i + 1) = wordAt l i := by simp [wordAt]

/-- Reading past a field. -/
theorem wordAt_past_wordBytes (x : Word) (l : List Byte) (i : Nat) : wordAt (wordBytes x ++ l) (i + 2) = wordAt l i := by
  simp [wordAt, wordBytes]

theorem wordBytes_length (x : Word) : (wordBytes x).length = 2 := rfl

/-- A frame of a known code and of its code's length, built with its CRC-8, is examined as what its code asks for; bytes
after the frame make no difference (R166). -/
theorem examine_frameBytes (code tag : Byte) (payload more : List Byte) (h : code ≠ 0xFF)
    (hl : frameLength code = some (payload.length + 3)) :
    examine (frameBytes code tag payload ++ more) = frameOf code tag payload := by
  unfold frameBytes
  simp only [List.cons_append, examine, Config.fill, h, if_false, hl]
  have e : List.take (payload.length + 3) (code :: tag :: (payload ++ [crc8 (code :: tag :: payload)] ++ more)) =
      code :: tag :: (payload ++ [crc8 (code :: tag :: payload)]) := by
    simp only [List.take_succ_cons, List.cons.injEq, true_and]
    rw [List.take_append_of_le_length (by simp), List.take_of_length_le (by simp)]
  have e2 : (code :: tag :: (payload ++ [crc8 (code :: tag :: payload)])).dropLast = code :: tag :: payload := by
    rw [← List.cons_append, ← List.cons_append, List.dropLast_concat]
  have e3 : (code :: tag :: (payload ++ [crc8 (code :: tag :: payload)])).getLastD 0 = crc8 (code :: tag :: payload) := by
    rw [← List.cons_append, ← List.cons_append, List.getLastD_eq_getLast?, List.getLast?_concat]; rfl
  rw [e, e2, e3]
  simp

theorem examine_nop (tag : Byte) (more : List Byte) : examine (frameBytes 0x01 tag [] ++ more) = .nop tag :=
  (examine_frameBytes 0x01 tag [] more (by decide) rfl).trans rfl

theorem examine_rpt (tag : Byte) (more : List Byte) : examine (frameBytes 0x02 tag [] ++ more) = .rpt tag :=
  (examine_frameBytes 0x02 tag [] more (by decide) rfl).trans rfl

theorem examine_ntf (tag : Byte) (more : List Byte) : examine (frameBytes 0x03 tag [] ++ more) = .ntf tag :=
  (examine_frameBytes 0x03 tag [] more (by decide) rfl).trans rfl

theorem examine_fill (rest : List Byte) : examine (0xFF :: rest) = .fill := rfl

theorem examine_nil : examine [] = .noByte := rfl

/-- A core command's payload has the length its code gives the frame (R173). -/
theorem frameLength_code (c : Command) (h : c.code ≠ 0x61) : frameLength c.code = some (c.payload.length + 3) := by
  cases c <;> first | rfl | exact absurd rfl h

/-- STG's frame is 20 bytes long when it carries its 16 data bytes (R173). -/
theorem frameLength_stg (block : Byte) (data : List Byte) (h : data.length = 16) :
    frameLength (Command.stg block data).code = some ((Command.stg block data).payload.length + 3) := by
  simp [Command.payload, h]; rfl

end Sys2Proof
end

