-- ==== Sys2Proof/Laws/State.lean ====
section
/-! SUPPORT. What each update of one entry of a table leaves as it was, and what it puts there: one lemma a field. -/

namespace Sys2Proof.Machine.State

variable (s : State)

@[simp] theorem modPort_pending (p : Port) (f : PortCtl → PortCtl) : (s.modPort p f).pending = s.pending := rfl
@[simp] theorem modPort_phase (p : Port) (f : PortCtl → PortCtl) : (s.modPort p f).phase = s.phase := rfl
@[simp] theorem modPort_rstn (p : Port) (f : PortCtl → PortCtl) : (s.modPort p f).rstn = s.rstn := rfl
@[simp] theorem modPort_pools (p : Port) (f : PortCtl → PortCtl) : (s.modPort p f).pools = s.pools := rfl
@[simp] theorem modPort_grants (p : Port) (f : PortCtl → PortCtl) : (s.modPort p f).grants = s.grants := rfl
@[simp] theorem modPort_ageList (p : Port) (f : PortCtl → PortCtl) : (s.modPort p f).ageList = s.ageList := rfl
@[simp] theorem modPort_waits (p : Port) (f : PortCtl → PortCtl) : (s.modPort p f).waits = s.waits := rfl
@[simp] theorem modPort_marks (p : Port) (f : PortCtl → PortCtl) : (s.modPort p f).marks = s.marks := rfl
@[simp] theorem modPort_tokens (p : Port) (f : PortCtl → PortCtl) : (s.modPort p f).tokens = s.tokens := rfl
@[simp] theorem modPort_watches (p : Port) (f : PortCtl → PortCtl) : (s.modPort p f).watches = s.watches := rfl
@[simp] theorem modPort_sessions (p : Port) (f : PortCtl → PortCtl) : (s.modPort p f).sessions = s.sessions := rfl
@[simp] theorem modPort_window (p : Port) (f : PortCtl → PortCtl) : (s.modPort p f).window = s.window := rfl
@[simp] theorem modPort_restartCount (p : Port) (f : PortCtl → PortCtl) : (s.modPort p f).restartCount = s.restartCount := rfl
@[simp] theorem modPort_startKind (p : Port) (f : PortCtl → PortCtl) : (s.modPort p f).startKind = s.startKind := rfl
@[simp] theorem modPort_signature (p : Port) (f : PortCtl → PortCtl) : (s.modPort p f).signature = s.signature := rfl
@[simp] theorem modPort_profile (p : Port) (f : PortCtl → PortCtl) : (s.modPort p f).profile = s.profile := rfl
@[simp] theorem modPort_lastTaken (p : Port) (f : PortCtl → PortCtl) : (s.modPort p f).lastTaken = s.lastTaken := rfl
@[simp] theorem modPort_answering (p : Port) (f : PortCtl → PortCtl) : (s.modPort p f).answering = s.answering := rfl
@[simp] theorem modPort_transit (p : Port) (f : PortCtl → PortCtl) : (s.modPort p f).transit = s.transit := rfl
@[simp] theorem modPort_expiryEvents (p : Port) (f : PortCtl → PortCtl) : (s.modPort p f).expiryEvents = s.expiryEvents := rfl
@[simp] theorem modPort_sagEvents (p : Port) (f : PortCtl → PortCtl) : (s.modPort p f).sagEvents = s.sagEvents := rfl
@[simp] theorem modPort_auditEndMade (p : Port) (f : PortCtl → PortCtl) : (s.modPort p f).auditEndMade = s.auditEndMade := rfl
@[simp] theorem modPort_due (p : Port) (f : PortCtl → PortCtl) : (s.modPort p f).due = s.due := rfl
@[simp] theorem modPort_lineA (p : Port) (f : PortCtl → PortCtl) : (s.modPort p f).lineA = s.lineA := rfl
@[simp] theorem modPort_lineB (p : Port) (f : PortCtl → PortCtl) : (s.modPort p f).lineB = s.lineB := rfl
@[simp] theorem modPort_slots (p : Port) (f : PortCtl → PortCtl) : (s.modPort p f).slots = s.slots := rfl
@[simp] theorem modPort_staging (p : Port) (f : PortCtl → PortCtl) : (s.modPort p f).staging = s.staging := rfl
@[simp] theorem modPort_sealing (p : Port) (f : PortCtl → PortCtl) : (s.modPort p f).sealing = s.sealing := rfl
@[simp] theorem modPort_commissioning (p : Port) (f : PortCtl → PortCtl) : (s.modPort p f).commissioning = s.commissioning := rfl

@[simp] theorem modPool_pending (n : PoolNo) (f : Pool → Pool) : (s.modPool n f).pending = s.pending := rfl
@[simp] theorem modPool_phase (n : PoolNo) (f : Pool → Pool) : (s.modPool n f).phase = s.phase := rfl
@[simp] theorem modPool_rstn (n : PoolNo) (f : Pool → Pool) : (s.modPool n f).rstn = s.rstn := rfl
@[simp] theorem modPool_grants (n : PoolNo) (f : Pool → Pool) : (s.modPool n f).grants = s.grants := rfl
@[simp] theorem modPool_ageList (n : PoolNo) (f : Pool → Pool) : (s.modPool n f).ageList = s.ageList := rfl
@[simp] theorem modPool_waits (n : PoolNo) (f : Pool → Pool) : (s.modPool n f).waits = s.waits := rfl
@[simp] theorem modPool_marks (n : PoolNo) (f : Pool → Pool) : (s.modPool n f).marks = s.marks := rfl
@[simp] theorem modPool_tokens (n : PoolNo) (f : Pool → Pool) : (s.modPool n f).tokens = s.tokens := rfl
@[simp] theorem modPool_watches (n : PoolNo) (f : Pool → Pool) : (s.modPool n f).watches = s.watches := rfl
@[simp] theorem modPool_sessions (n : PoolNo) (f : Pool → Pool) : (s.modPool n f).sessions = s.sessions := rfl
@[simp] theorem modPool_window (n : PoolNo) (f : Pool → Pool) : (s.modPool n f).window = s.window := rfl
@[simp] theorem modPool_restartCount (n : PoolNo) (f : Pool → Pool) : (s.modPool n f).restartCount = s.restartCount := rfl
@[simp] theorem modPool_startKind (n : PoolNo) (f : Pool → Pool) : (s.modPool n f).startKind = s.startKind := rfl
@[simp] theorem modPool_signature (n : PoolNo) (f : Pool → Pool) : (s.modPool n f).signature = s.signature := rfl
@[simp] theorem modPool_profile (n : PoolNo) (f : Pool → Pool) : (s.modPool n f).profile = s.profile := rfl
@[simp] theorem modPool_lastTaken (n : PoolNo) (f : Pool → Pool) : (s.modPool n f).lastTaken = s.lastTaken := rfl
@[simp] theorem modPool_answering (n : PoolNo) (f : Pool → Pool) : (s.modPool n f).answering = s.answering := rfl
@[simp] theorem modPool_transit (n : PoolNo) (f : Pool → Pool) : (s.modPool n f).transit = s.transit := rfl
@[simp] theorem modPool_expiryEvents (n : PoolNo) (f : Pool → Pool) : (s.modPool n f).expiryEvents = s.expiryEvents := rfl
@[simp] theorem modPool_sagEvents (n : PoolNo) (f : Pool → Pool) : (s.modPool n f).sagEvents = s.sagEvents := rfl
@[simp] theorem modPool_auditEndMade (n : PoolNo) (f : Pool → Pool) : (s.modPool n f).auditEndMade = s.auditEndMade := rfl
@[simp] theorem modPool_due (n : PoolNo) (f : Pool → Pool) : (s.modPool n f).due = s.due := rfl
@[simp] theorem modPool_ports (n : PoolNo) (f : Pool → Pool) : (s.modPool n f).ports = s.ports := rfl
@[simp] theorem modPool_lineA (n : PoolNo) (f : Pool → Pool) : (s.modPool n f).lineA = s.lineA := rfl
@[simp] theorem modPool_lineB (n : PoolNo) (f : Pool → Pool) : (s.modPool n f).lineB = s.lineB := rfl
@[simp] theorem modPool_slots (n : PoolNo) (f : Pool → Pool) : (s.modPool n f).slots = s.slots := rfl
@[simp] theorem modPool_staging (n : PoolNo) (f : Pool → Pool) : (s.modPool n f).staging = s.staging := rfl
@[simp] theorem modPool_sealing (n : PoolNo) (f : Pool → Pool) : (s.modPool n f).sealing = s.sealing := rfl
@[simp] theorem modPool_commissioning (n : PoolNo) (f : Pool → Pool) : (s.modPool n f).commissioning = s.commissioning := rfl

@[simp] theorem setSession_pending (p : Port) (x : Session) : (s.setSession p x).pending = s.pending := rfl
@[simp] theorem setSession_phase (p : Port) (x : Session) : (s.setSession p x).phase = s.phase := rfl
@[simp] theorem setSession_rstn (p : Port) (x : Session) : (s.setSession p x).rstn = s.rstn := rfl
@[simp] theorem setSession_pools (p : Port) (x : Session) : (s.setSession p x).pools = s.pools := rfl
@[simp] theorem setSession_grants (p : Port) (x : Session) : (s.setSession p x).grants = s.grants := rfl
@[simp] theorem setSession_ageList (p : Port) (x : Session) : (s.setSession p x).ageList = s.ageList := rfl
@[simp] theorem setSession_waits (p : Port) (x : Session) : (s.setSession p x).waits = s.waits := rfl
@[simp] theorem setSession_marks (p : Port) (x : Session) : (s.setSession p x).marks = s.marks := rfl
@[simp] theorem setSession_tokens (p : Port) (x : Session) : (s.setSession p x).tokens = s.tokens := rfl
@[simp] theorem setSession_watches (p : Port) (x : Session) : (s.setSession p x).watches = s.watches := rfl
@[simp] theorem setSession_window (p : Port) (x : Session) : (s.setSession p x).window = s.window := rfl
@[simp] theorem setSession_restartCount (p : Port) (x : Session) : (s.setSession p x).restartCount = s.restartCount := rfl
@[simp] theorem setSession_startKind (p : Port) (x : Session) : (s.setSession p x).startKind = s.startKind := rfl
@[simp] theorem setSession_signature (p : Port) (x : Session) : (s.setSession p x).signature = s.signature := rfl
@[simp] theorem setSession_profile (p : Port) (x : Session) : (s.setSession p x).profile = s.profile := rfl
@[simp] theorem setSession_lastTaken (p : Port) (x : Session) : (s.setSession p x).lastTaken = s.lastTaken := rfl
@[simp] theorem setSession_answering (p : Port) (x : Session) : (s.setSession p x).answering = s.answering := rfl
@[simp] theorem setSession_transit (p : Port) (x : Session) : (s.setSession p x).transit = s.transit := rfl
@[simp] theorem setSession_expiryEvents (p : Port) (x : Session) : (s.setSession p x).expiryEvents = s.expiryEvents := rfl
@[simp] theorem setSession_sagEvents (p : Port) (x : Session) : (s.setSession p x).sagEvents = s.sagEvents := rfl
@[simp] theorem setSession_auditEndMade (p : Port) (x : Session) : (s.setSession p x).auditEndMade = s.auditEndMade := rfl
@[simp] theorem setSession_due (p : Port) (x : Session) : (s.setSession p x).due = s.due := rfl
@[simp] theorem setSession_ports (p : Port) (x : Session) : (s.setSession p x).ports = s.ports := rfl
@[simp] theorem setSession_lineA (p : Port) (x : Session) : (s.setSession p x).lineA = s.lineA := rfl
@[simp] theorem setSession_lineB (p : Port) (x : Session) : (s.setSession p x).lineB = s.lineB := rfl
@[simp] theorem setSession_slots (p : Port) (x : Session) : (s.setSession p x).slots = s.slots := rfl
@[simp] theorem setSession_staging (p : Port) (x : Session) : (s.setSession p x).staging = s.staging := rfl
@[simp] theorem setSession_sealing (p : Port) (x : Session) : (s.setSession p x).sealing = s.sealing := rfl
@[simp] theorem setSession_commissioning (p : Port) (x : Session) : (s.setSession p x).commissioning = s.commissioning := rfl

@[simp] theorem setWatch_pending (p : Port) (m : Word) : (s.setWatch p m).pending = s.pending := rfl
@[simp] theorem setWatch_phase (p : Port) (m : Word) : (s.setWatch p m).phase = s.phase := rfl
@[simp] theorem setWatch_rstn (p : Port) (m : Word) : (s.setWatch p m).rstn = s.rstn := rfl
@[simp] theorem setWatch_pools (p : Port) (m : Word) : (s.setWatch p m).pools = s.pools := rfl
@[simp] theorem setWatch_grants (p : Port) (m : Word) : (s.setWatch p m).grants = s.grants := rfl
@[simp] theorem setWatch_ageList (p : Port) (m : Word) : (s.setWatch p m).ageList = s.ageList := rfl
@[simp] theorem setWatch_waits (p : Port) (m : Word) : (s.setWatch p m).waits = s.waits := rfl
@[simp] theorem setWatch_marks (p : Port) (m : Word) : (s.setWatch p m).marks = s.marks := rfl
@[simp] theorem setWatch_tokens (p : Port) (m : Word) : (s.setWatch p m).tokens = s.tokens := rfl
@[simp] theorem setWatch_sessions (p : Port) (m : Word) : (s.setWatch p m).sessions = s.sessions := rfl
@[simp] theorem setWatch_window (p : Port) (m : Word) : (s.setWatch p m).window = s.window := rfl
@[simp] theorem setWatch_restartCount (p : Port) (m : Word) : (s.setWatch p m).restartCount = s.restartCount := rfl
@[simp] theorem setWatch_startKind (p : Port) (m : Word) : (s.setWatch p m).startKind = s.startKind := rfl
@[simp] theorem setWatch_signature (p : Port) (m : Word) : (s.setWatch p m).signature = s.signature := rfl
@[simp] theorem setWatch_profile (p : Port) (m : Word) : (s.setWatch p m).profile = s.profile := rfl
@[simp] theorem setWatch_lastTaken (p : Port) (m : Word) : (s.setWatch p m).lastTaken = s.lastTaken := rfl
@[simp] theorem setWatch_answering (p : Port) (m : Word) : (s.setWatch p m).answering = s.answering := rfl
@[simp] theorem setWatch_transit (p : Port) (m : Word) : (s.setWatch p m).transit = s.transit := rfl
@[simp] theorem setWatch_expiryEvents (p : Port) (m : Word) : (s.setWatch p m).expiryEvents = s.expiryEvents := rfl
@[simp] theorem setWatch_sagEvents (p : Port) (m : Word) : (s.setWatch p m).sagEvents = s.sagEvents := rfl
@[simp] theorem setWatch_auditEndMade (p : Port) (m : Word) : (s.setWatch p m).auditEndMade = s.auditEndMade := rfl
@[simp] theorem setWatch_due (p : Port) (m : Word) : (s.setWatch p m).due = s.due := rfl
@[simp] theorem setWatch_ports (p : Port) (m : Word) : (s.setWatch p m).ports = s.ports := rfl
@[simp] theorem setWatch_lineA (p : Port) (m : Word) : (s.setWatch p m).lineA = s.lineA := rfl
@[simp] theorem setWatch_lineB (p : Port) (m : Word) : (s.setWatch p m).lineB = s.lineB := rfl
@[simp] theorem setWatch_slots (p : Port) (m : Word) : (s.setWatch p m).slots = s.slots := rfl
@[simp] theorem setWatch_staging (p : Port) (m : Word) : (s.setWatch p m).staging = s.staging := rfl
@[simp] theorem setWatch_sealing (p : Port) (m : Word) : (s.setWatch p m).sealing = s.sealing := rfl
@[simp] theorem setWatch_commissioning (p : Port) (m : Word) : (s.setWatch p m).commissioning = s.commissioning := rfl

@[simp] theorem setMark_pending (n : PoolNo) (b : Bool) : (s.setMark n b).pending = s.pending := rfl
@[simp] theorem setMark_phase (n : PoolNo) (b : Bool) : (s.setMark n b).phase = s.phase := rfl
@[simp] theorem setMark_rstn (n : PoolNo) (b : Bool) : (s.setMark n b).rstn = s.rstn := rfl
@[simp] theorem setMark_pools (n : PoolNo) (b : Bool) : (s.setMark n b).pools = s.pools := rfl
@[simp] theorem setMark_grants (n : PoolNo) (b : Bool) : (s.setMark n b).grants = s.grants := rfl
@[simp] theorem setMark_ageList (n : PoolNo) (b : Bool) : (s.setMark n b).ageList = s.ageList := rfl
@[simp] theorem setMark_waits (n : PoolNo) (b : Bool) : (s.setMark n b).waits = s.waits := rfl
@[simp] theorem setMark_tokens (n : PoolNo) (b : Bool) : (s.setMark n b).tokens = s.tokens := rfl
@[simp] theorem setMark_watches (n : PoolNo) (b : Bool) : (s.setMark n b).watches = s.watches := rfl
@[simp] theorem setMark_sessions (n : PoolNo) (b : Bool) : (s.setMark n b).sessions = s.sessions := rfl
@[simp] theorem setMark_window (n : PoolNo) (b : Bool) : (s.setMark n b).window = s.window := rfl
@[simp] theorem setMark_restartCount (n : PoolNo) (b : Bool) : (s.setMark n b).restartCount = s.restartCount := rfl
@[simp] theorem setMark_startKind (n : PoolNo) (b : Bool) : (s.setMark n b).startKind = s.startKind := rfl
@[simp] theorem setMark_signature (n : PoolNo) (b : Bool) : (s.setMark n b).signature = s.signature := rfl
@[simp] theorem setMark_profile (n : PoolNo) (b : Bool) : (s.setMark n b).profile = s.profile := rfl
@[simp] theorem setMark_lastTaken (n : PoolNo) (b : Bool) : (s.setMark n b).lastTaken = s.lastTaken := rfl
@[simp] theorem setMark_answering (n : PoolNo) (b : Bool) : (s.setMark n b).answering = s.answering := rfl
@[simp] theorem setMark_transit (n : PoolNo) (b : Bool) : (s.setMark n b).transit = s.transit := rfl
@[simp] theorem setMark_expiryEvents (n : PoolNo) (b : Bool) : (s.setMark n b).expiryEvents = s.expiryEvents := rfl
@[simp] theorem setMark_sagEvents (n : PoolNo) (b : Bool) : (s.setMark n b).sagEvents = s.sagEvents := rfl
@[simp] theorem setMark_auditEndMade (n : PoolNo) (b : Bool) : (s.setMark n b).auditEndMade = s.auditEndMade := rfl
@[simp] theorem setMark_due (n : PoolNo) (b : Bool) : (s.setMark n b).due = s.due := rfl
@[simp] theorem setMark_ports (n : PoolNo) (b : Bool) : (s.setMark n b).ports = s.ports := rfl
@[simp] theorem setMark_lineA (n : PoolNo) (b : Bool) : (s.setMark n b).lineA = s.lineA := rfl
@[simp] theorem setMark_lineB (n : PoolNo) (b : Bool) : (s.setMark n b).lineB = s.lineB := rfl
@[simp] theorem setMark_slots (n : PoolNo) (b : Bool) : (s.setMark n b).slots = s.slots := rfl
@[simp] theorem setMark_staging (n : PoolNo) (b : Bool) : (s.setMark n b).staging = s.staging := rfl
@[simp] theorem setMark_sealing (n : PoolNo) (b : Bool) : (s.setMark n b).sealing = s.sealing := rfl
@[simp] theorem setMark_commissioning (n : PoolNo) (b : Bool) : (s.setMark n b).commissioning = s.commissioning := rfl

@[simp] theorem setGrantSlot_pending (i : GrantNo) (x : GrantSlot) : (s.setGrantSlot i x).pending = s.pending := rfl
@[simp] theorem setGrantSlot_phase (i : GrantNo) (x : GrantSlot) : (s.setGrantSlot i x).phase = s.phase := rfl
@[simp] theorem setGrantSlot_rstn (i : GrantNo) (x : GrantSlot) : (s.setGrantSlot i x).rstn = s.rstn := rfl
@[simp] theorem setGrantSlot_pools (i : GrantNo) (x : GrantSlot) : (s.setGrantSlot i x).pools = s.pools := rfl
@[simp] theorem setGrantSlot_ageList (i : GrantNo) (x : GrantSlot) : (s.setGrantSlot i x).ageList = s.ageList := rfl
@[simp] theorem setGrantSlot_waits (i : GrantNo) (x : GrantSlot) : (s.setGrantSlot i x).waits = s.waits := rfl
@[simp] theorem setGrantSlot_marks (i : GrantNo) (x : GrantSlot) : (s.setGrantSlot i x).marks = s.marks := rfl
@[simp] theorem setGrantSlot_tokens (i : GrantNo) (x : GrantSlot) : (s.setGrantSlot i x).tokens = s.tokens := rfl
@[simp] theorem setGrantSlot_watches (i : GrantNo) (x : GrantSlot) : (s.setGrantSlot i x).watches = s.watches := rfl
@[simp] theorem setGrantSlot_sessions (i : GrantNo) (x : GrantSlot) : (s.setGrantSlot i x).sessions = s.sessions := rfl
@[simp] theorem setGrantSlot_window (i : GrantNo) (x : GrantSlot) : (s.setGrantSlot i x).window = s.window := rfl
@[simp] theorem setGrantSlot_restartCount (i : GrantNo) (x : GrantSlot) : (s.setGrantSlot i x).restartCount = s.restartCount := rfl
@[simp] theorem setGrantSlot_startKind (i : GrantNo) (x : GrantSlot) : (s.setGrantSlot i x).startKind = s.startKind := rfl
@[simp] theorem setGrantSlot_signature (i : GrantNo) (x : GrantSlot) : (s.setGrantSlot i x).signature = s.signature := rfl
@[simp] theorem setGrantSlot_profile (i : GrantNo) (x : GrantSlot) : (s.setGrantSlot i x).profile = s.profile := rfl
@[simp] theorem setGrantSlot_lastTaken (i : GrantNo) (x : GrantSlot) : (s.setGrantSlot i x).lastTaken = s.lastTaken := rfl
@[simp] theorem setGrantSlot_answering (i : GrantNo) (x : GrantSlot) : (s.setGrantSlot i x).answering = s.answering := rfl
@[simp] theorem setGrantSlot_transit (i : GrantNo) (x : GrantSlot) : (s.setGrantSlot i x).transit = s.transit := rfl
@[simp] theorem setGrantSlot_expiryEvents (i : GrantNo) (x : GrantSlot) : (s.setGrantSlot i x).expiryEvents = s.expiryEvents := rfl
@[simp] theorem setGrantSlot_sagEvents (i : GrantNo) (x : GrantSlot) : (s.setGrantSlot i x).sagEvents = s.sagEvents := rfl
@[simp] theorem setGrantSlot_auditEndMade (i : GrantNo) (x : GrantSlot) : (s.setGrantSlot i x).auditEndMade = s.auditEndMade := rfl
@[simp] theorem setGrantSlot_due (i : GrantNo) (x : GrantSlot) : (s.setGrantSlot i x).due = s.due := rfl
@[simp] theorem setGrantSlot_ports (i : GrantNo) (x : GrantSlot) : (s.setGrantSlot i x).ports = s.ports := rfl
@[simp] theorem setGrantSlot_lineA (i : GrantNo) (x : GrantSlot) : (s.setGrantSlot i x).lineA = s.lineA := rfl
@[simp] theorem setGrantSlot_lineB (i : GrantNo) (x : GrantSlot) : (s.setGrantSlot i x).lineB = s.lineB := rfl
@[simp] theorem setGrantSlot_slots (i : GrantNo) (x : GrantSlot) : (s.setGrantSlot i x).slots = s.slots := rfl
@[simp] theorem setGrantSlot_staging (i : GrantNo) (x : GrantSlot) : (s.setGrantSlot i x).staging = s.staging := rfl
@[simp] theorem setGrantSlot_sealing (i : GrantNo) (x : GrantSlot) : (s.setGrantSlot i x).sealing = s.sealing := rfl
@[simp] theorem setGrantSlot_commissioning (i : GrantNo) (x : GrantSlot) : (s.setGrantSlot i x).commissioning = s.commissioning := rfl

@[simp] theorem setWaitSlot_pending (i : WaitNo) (x : WaitSlot) : (s.setWaitSlot i x).pending = s.pending := rfl
@[simp] theorem setWaitSlot_phase (i : WaitNo) (x : WaitSlot) : (s.setWaitSlot i x).phase = s.phase := rfl
@[simp] theorem setWaitSlot_rstn (i : WaitNo) (x : WaitSlot) : (s.setWaitSlot i x).rstn = s.rstn := rfl
@[simp] theorem setWaitSlot_pools (i : WaitNo) (x : WaitSlot) : (s.setWaitSlot i x).pools = s.pools := rfl
@[simp] theorem setWaitSlot_grants (i : WaitNo) (x : WaitSlot) : (s.setWaitSlot i x).grants = s.grants := rfl
@[simp] theorem setWaitSlot_ageList (i : WaitNo) (x : WaitSlot) : (s.setWaitSlot i x).ageList = s.ageList := rfl
@[simp] theorem setWaitSlot_marks (i : WaitNo) (x : WaitSlot) : (s.setWaitSlot i x).marks = s.marks := rfl
@[simp] theorem setWaitSlot_tokens (i : WaitNo) (x : WaitSlot) : (s.setWaitSlot i x).tokens = s.tokens := rfl
@[simp] theorem setWaitSlot_watches (i : WaitNo) (x : WaitSlot) : (s.setWaitSlot i x).watches = s.watches := rfl
@[simp] theorem setWaitSlot_sessions (i : WaitNo) (x : WaitSlot) : (s.setWaitSlot i x).sessions = s.sessions := rfl
@[simp] theorem setWaitSlot_window (i : WaitNo) (x : WaitSlot) : (s.setWaitSlot i x).window = s.window := rfl
@[simp] theorem setWaitSlot_restartCount (i : WaitNo) (x : WaitSlot) : (s.setWaitSlot i x).restartCount = s.restartCount := rfl
@[simp] theorem setWaitSlot_startKind (i : WaitNo) (x : WaitSlot) : (s.setWaitSlot i x).startKind = s.startKind := rfl
@[simp] theorem setWaitSlot_signature (i : WaitNo) (x : WaitSlot) : (s.setWaitSlot i x).signature = s.signature := rfl
@[simp] theorem setWaitSlot_profile (i : WaitNo) (x : WaitSlot) : (s.setWaitSlot i x).profile = s.profile := rfl
@[simp] theorem setWaitSlot_lastTaken (i : WaitNo) (x : WaitSlot) : (s.setWaitSlot i x).lastTaken = s.lastTaken := rfl
@[simp] theorem setWaitSlot_answering (i : WaitNo) (x : WaitSlot) : (s.setWaitSlot i x).answering = s.answering := rfl
@[simp] theorem setWaitSlot_transit (i : WaitNo) (x : WaitSlot) : (s.setWaitSlot i x).transit = s.transit := rfl
@[simp] theorem setWaitSlot_expiryEvents (i : WaitNo) (x : WaitSlot) : (s.setWaitSlot i x).expiryEvents = s.expiryEvents := rfl
@[simp] theorem setWaitSlot_sagEvents (i : WaitNo) (x : WaitSlot) : (s.setWaitSlot i x).sagEvents = s.sagEvents := rfl
@[simp] theorem setWaitSlot_auditEndMade (i : WaitNo) (x : WaitSlot) : (s.setWaitSlot i x).auditEndMade = s.auditEndMade := rfl
@[simp] theorem setWaitSlot_due (i : WaitNo) (x : WaitSlot) : (s.setWaitSlot i x).due = s.due := rfl
@[simp] theorem setWaitSlot_ports (i : WaitNo) (x : WaitSlot) : (s.setWaitSlot i x).ports = s.ports := rfl
@[simp] theorem setWaitSlot_lineA (i : WaitNo) (x : WaitSlot) : (s.setWaitSlot i x).lineA = s.lineA := rfl
@[simp] theorem setWaitSlot_lineB (i : WaitNo) (x : WaitSlot) : (s.setWaitSlot i x).lineB = s.lineB := rfl
@[simp] theorem setWaitSlot_slots (i : WaitNo) (x : WaitSlot) : (s.setWaitSlot i x).slots = s.slots := rfl
@[simp] theorem setWaitSlot_staging (i : WaitNo) (x : WaitSlot) : (s.setWaitSlot i x).staging = s.staging := rfl
@[simp] theorem setWaitSlot_sealing (i : WaitNo) (x : WaitSlot) : (s.setWaitSlot i x).sealing = s.sealing := rfl
@[simp] theorem setWaitSlot_commissioning (i : WaitNo) (x : WaitSlot) : (s.setWaitSlot i x).commissioning = s.commissioning := rfl

@[simp] theorem setImageSlot_pending (i : SlotNo) (x : ImageSlot) : (s.setImageSlot i x).pending = s.pending := rfl
@[simp] theorem setImageSlot_phase (i : SlotNo) (x : ImageSlot) : (s.setImageSlot i x).phase = s.phase := rfl
@[simp] theorem setImageSlot_rstn (i : SlotNo) (x : ImageSlot) : (s.setImageSlot i x).rstn = s.rstn := rfl
@[simp] theorem setImageSlot_pools (i : SlotNo) (x : ImageSlot) : (s.setImageSlot i x).pools = s.pools := rfl
@[simp] theorem setImageSlot_grants (i : SlotNo) (x : ImageSlot) : (s.setImageSlot i x).grants = s.grants := rfl
@[simp] theorem setImageSlot_ageList (i : SlotNo) (x : ImageSlot) : (s.setImageSlot i x).ageList = s.ageList := rfl
@[simp] theorem setImageSlot_waits (i : SlotNo) (x : ImageSlot) : (s.setImageSlot i x).waits = s.waits := rfl
@[simp] theorem setImageSlot_marks (i : SlotNo) (x : ImageSlot) : (s.setImageSlot i x).marks = s.marks := rfl
@[simp] theorem setImageSlot_tokens (i : SlotNo) (x : ImageSlot) : (s.setImageSlot i x).tokens = s.tokens := rfl
@[simp] theorem setImageSlot_watches (i : SlotNo) (x : ImageSlot) : (s.setImageSlot i x).watches = s.watches := rfl
@[simp] theorem setImageSlot_sessions (i : SlotNo) (x : ImageSlot) : (s.setImageSlot i x).sessions = s.sessions := rfl
@[simp] theorem setImageSlot_window (i : SlotNo) (x : ImageSlot) : (s.setImageSlot i x).window = s.window := rfl
@[simp] theorem setImageSlot_restartCount (i : SlotNo) (x : ImageSlot) : (s.setImageSlot i x).restartCount = s.restartCount := rfl
@[simp] theorem setImageSlot_startKind (i : SlotNo) (x : ImageSlot) : (s.setImageSlot i x).startKind = s.startKind := rfl
@[simp] theorem setImageSlot_signature (i : SlotNo) (x : ImageSlot) : (s.setImageSlot i x).signature = s.signature := rfl
@[simp] theorem setImageSlot_profile (i : SlotNo) (x : ImageSlot) : (s.setImageSlot i x).profile = s.profile := rfl
@[simp] theorem setImageSlot_lastTaken (i : SlotNo) (x : ImageSlot) : (s.setImageSlot i x).lastTaken = s.lastTaken := rfl
@[simp] theorem setImageSlot_answering (i : SlotNo) (x : ImageSlot) : (s.setImageSlot i x).answering = s.answering := rfl
@[simp] theorem setImageSlot_transit (i : SlotNo) (x : ImageSlot) : (s.setImageSlot i x).transit = s.transit := rfl
@[simp] theorem setImageSlot_expiryEvents (i : SlotNo) (x : ImageSlot) : (s.setImageSlot i x).expiryEvents = s.expiryEvents := rfl
@[simp] theorem setImageSlot_sagEvents (i : SlotNo) (x : ImageSlot) : (s.setImageSlot i x).sagEvents = s.sagEvents := rfl
@[simp] theorem setImageSlot_auditEndMade (i : SlotNo) (x : ImageSlot) : (s.setImageSlot i x).auditEndMade = s.auditEndMade := rfl
@[simp] theorem setImageSlot_due (i : SlotNo) (x : ImageSlot) : (s.setImageSlot i x).due = s.due := rfl
@[simp] theorem setImageSlot_ports (i : SlotNo) (x : ImageSlot) : (s.setImageSlot i x).ports = s.ports := rfl
@[simp] theorem setImageSlot_lineA (i : SlotNo) (x : ImageSlot) : (s.setImageSlot i x).lineA = s.lineA := rfl
@[simp] theorem setImageSlot_lineB (i : SlotNo) (x : ImageSlot) : (s.setImageSlot i x).lineB = s.lineB := rfl
@[simp] theorem setImageSlot_staging (i : SlotNo) (x : ImageSlot) : (s.setImageSlot i x).staging = s.staging := rfl
@[simp] theorem setImageSlot_sealing (i : SlotNo) (x : ImageSlot) : (s.setImageSlot i x).sealing = s.sealing := rfl
@[simp] theorem setImageSlot_commissioning (i : SlotNo) (x : ImageSlot) : (s.setImageSlot i x).commissioning = s.commissioning := rfl

@[simp] theorem setTokens_pending (m : Word) (x : Token) : (s.setTokens m x).pending = s.pending := rfl
@[simp] theorem setTokens_phase (m : Word) (x : Token) : (s.setTokens m x).phase = s.phase := rfl
@[simp] theorem setTokens_rstn (m : Word) (x : Token) : (s.setTokens m x).rstn = s.rstn := rfl
@[simp] theorem setTokens_pools (m : Word) (x : Token) : (s.setTokens m x).pools = s.pools := rfl
@[simp] theorem setTokens_grants (m : Word) (x : Token) : (s.setTokens m x).grants = s.grants := rfl
@[simp] theorem setTokens_ageList (m : Word) (x : Token) : (s.setTokens m x).ageList = s.ageList := rfl
@[simp] theorem setTokens_waits (m : Word) (x : Token) : (s.setTokens m x).waits = s.waits := rfl
@[simp] theorem setTokens_marks (m : Word) (x : Token) : (s.setTokens m x).marks = s.marks := rfl
@[simp] theorem setTokens_watches (m : Word) (x : Token) : (s.setTokens m x).watches = s.watches := rfl
@[simp] theorem setTokens_sessions (m : Word) (x : Token) : (s.setTokens m x).sessions = s.sessions := rfl
@[simp] theorem setTokens_window (m : Word) (x : Token) : (s.setTokens m x).window = s.window := rfl
@[simp] theorem setTokens_restartCount (m : Word) (x : Token) : (s.setTokens m x).restartCount = s.restartCount := rfl
@[simp] theorem setTokens_startKind (m : Word) (x : Token) : (s.setTokens m x).startKind = s.startKind := rfl
@[simp] theorem setTokens_signature (m : Word) (x : Token) : (s.setTokens m x).signature = s.signature := rfl
@[simp] theorem setTokens_profile (m : Word) (x : Token) : (s.setTokens m x).profile = s.profile := rfl
@[simp] theorem setTokens_lastTaken (m : Word) (x : Token) : (s.setTokens m x).lastTaken = s.lastTaken := rfl
@[simp] theorem setTokens_answering (m : Word) (x : Token) : (s.setTokens m x).answering = s.answering := rfl
@[simp] theorem setTokens_transit (m : Word) (x : Token) : (s.setTokens m x).transit = s.transit := rfl
@[simp] theorem setTokens_expiryEvents (m : Word) (x : Token) : (s.setTokens m x).expiryEvents = s.expiryEvents := rfl
@[simp] theorem setTokens_sagEvents (m : Word) (x : Token) : (s.setTokens m x).sagEvents = s.sagEvents := rfl
@[simp] theorem setTokens_auditEndMade (m : Word) (x : Token) : (s.setTokens m x).auditEndMade = s.auditEndMade := rfl
@[simp] theorem setTokens_due (m : Word) (x : Token) : (s.setTokens m x).due = s.due := rfl
@[simp] theorem setTokens_ports (m : Word) (x : Token) : (s.setTokens m x).ports = s.ports := rfl
@[simp] theorem setTokens_lineA (m : Word) (x : Token) : (s.setTokens m x).lineA = s.lineA := rfl
@[simp] theorem setTokens_lineB (m : Word) (x : Token) : (s.setTokens m x).lineB = s.lineB := rfl
@[simp] theorem setTokens_slots (m : Word) (x : Token) : (s.setTokens m x).slots = s.slots := rfl
@[simp] theorem setTokens_staging (m : Word) (x : Token) : (s.setTokens m x).staging = s.staging := rfl
@[simp] theorem setTokens_sealing (m : Word) (x : Token) : (s.setTokens m x).sealing = s.sealing := rfl
@[simp] theorem setTokens_commissioning (m : Word) (x : Token) : (s.setTokens m x).commissioning = s.commissioning := rfl

@[simp] theorem post_pending (p : Port) (n : Notice) : (s.post p n).pending = s.pending := rfl
@[simp] theorem post_phase (p : Port) (n : Notice) : (s.post p n).phase = s.phase := rfl
@[simp] theorem post_rstn (p : Port) (n : Notice) : (s.post p n).rstn = s.rstn := rfl
@[simp] theorem post_pools (p : Port) (n : Notice) : (s.post p n).pools = s.pools := rfl
@[simp] theorem post_grants (p : Port) (n : Notice) : (s.post p n).grants = s.grants := rfl
@[simp] theorem post_ageList (p : Port) (n : Notice) : (s.post p n).ageList = s.ageList := rfl
@[simp] theorem post_waits (p : Port) (n : Notice) : (s.post p n).waits = s.waits := rfl
@[simp] theorem post_marks (p : Port) (n : Notice) : (s.post p n).marks = s.marks := rfl
@[simp] theorem post_tokens (p : Port) (n : Notice) : (s.post p n).tokens = s.tokens := rfl
@[simp] theorem post_watches (p : Port) (n : Notice) : (s.post p n).watches = s.watches := rfl
@[simp] theorem post_sessions (p : Port) (n : Notice) : (s.post p n).sessions = s.sessions := rfl
@[simp] theorem post_window (p : Port) (n : Notice) : (s.post p n).window = s.window := rfl
@[simp] theorem post_restartCount (p : Port) (n : Notice) : (s.post p n).restartCount = s.restartCount := rfl
@[simp] theorem post_startKind (p : Port) (n : Notice) : (s.post p n).startKind = s.startKind := rfl
@[simp] theorem post_signature (p : Port) (n : Notice) : (s.post p n).signature = s.signature := rfl
@[simp] theorem post_profile (p : Port) (n : Notice) : (s.post p n).profile = s.profile := rfl
@[simp] theorem post_lastTaken (p : Port) (n : Notice) : (s.post p n).lastTaken = s.lastTaken := rfl
@[simp] theorem post_answering (p : Port) (n : Notice) : (s.post p n).answering = s.answering := rfl
@[simp] theorem post_expiryEvents (p : Port) (n : Notice) : (s.post p n).expiryEvents = s.expiryEvents := rfl
@[simp] theorem post_sagEvents (p : Port) (n : Notice) : (s.post p n).sagEvents = s.sagEvents := rfl
@[simp] theorem post_auditEndMade (p : Port) (n : Notice) : (s.post p n).auditEndMade = s.auditEndMade := rfl
@[simp] theorem post_due (p : Port) (n : Notice) : (s.post p n).due = s.due := rfl
@[simp] theorem post_ports (p : Port) (n : Notice) : (s.post p n).ports = s.ports := rfl
@[simp] theorem post_lineA (p : Port) (n : Notice) : (s.post p n).lineA = s.lineA := rfl
@[simp] theorem post_lineB (p : Port) (n : Notice) : (s.post p n).lineB = s.lineB := rfl
@[simp] theorem post_slots (p : Port) (n : Notice) : (s.post p n).slots = s.slots := rfl
@[simp] theorem post_staging (p : Port) (n : Notice) : (s.post p n).staging = s.staging := rfl
@[simp] theorem post_sealing (p : Port) (n : Notice) : (s.post p n).sealing = s.sealing := rfl
@[simp] theorem post_commissioning (p : Port) (n : Notice) : (s.post p n).commissioning = s.commissioning := rfl

@[simp] theorem replyWith_pending (p : Port) (x : Status) (l : List Byte) : (s.replyWith p x l).pending = s.pending := rfl
@[simp] theorem replyWith_phase (p : Port) (x : Status) (l : List Byte) : (s.replyWith p x l).phase = s.phase := rfl
@[simp] theorem replyWith_rstn (p : Port) (x : Status) (l : List Byte) : (s.replyWith p x l).rstn = s.rstn := rfl
@[simp] theorem replyWith_pools (p : Port) (x : Status) (l : List Byte) : (s.replyWith p x l).pools = s.pools := rfl
@[simp] theorem replyWith_grants (p : Port) (x : Status) (l : List Byte) : (s.replyWith p x l).grants = s.grants := rfl
@[simp] theorem replyWith_ageList (p : Port) (x : Status) (l : List Byte) : (s.replyWith p x l).ageList = s.ageList := rfl
@[simp] theorem replyWith_waits (p : Port) (x : Status) (l : List Byte) : (s.replyWith p x l).waits = s.waits := rfl
@[simp] theorem replyWith_marks (p : Port) (x : Status) (l : List Byte) : (s.replyWith p x l).marks = s.marks := rfl
@[simp] theorem replyWith_tokens (p : Port) (x : Status) (l : List Byte) : (s.replyWith p x l).tokens = s.tokens := rfl
@[simp] theorem replyWith_watches (p : Port) (x : Status) (l : List Byte) : (s.replyWith p x l).watches = s.watches := rfl
@[simp] theorem replyWith_sessions (p : Port) (x : Status) (l : List Byte) : (s.replyWith p x l).sessions = s.sessions := rfl
@[simp] theorem replyWith_window (p : Port) (x : Status) (l : List Byte) : (s.replyWith p x l).window = s.window := rfl
@[simp] theorem replyWith_restartCount (p : Port) (x : Status) (l : List Byte) : (s.replyWith p x l).restartCount = s.restartCount := rfl
@[simp] theorem replyWith_startKind (p : Port) (x : Status) (l : List Byte) : (s.replyWith p x l).startKind = s.startKind := rfl
@[simp] theorem replyWith_signature (p : Port) (x : Status) (l : List Byte) : (s.replyWith p x l).signature = s.signature := rfl
@[simp] theorem replyWith_profile (p : Port) (x : Status) (l : List Byte) : (s.replyWith p x l).profile = s.profile := rfl
@[simp] theorem replyWith_lastTaken (p : Port) (x : Status) (l : List Byte) : (s.replyWith p x l).lastTaken = s.lastTaken := rfl
@[simp] theorem replyWith_transit (p : Port) (x : Status) (l : List Byte) : (s.replyWith p x l).transit = s.transit := rfl
@[simp] theorem replyWith_expiryEvents (p : Port) (x : Status) (l : List Byte) : (s.replyWith p x l).expiryEvents = s.expiryEvents := rfl
@[simp] theorem replyWith_sagEvents (p : Port) (x : Status) (l : List Byte) : (s.replyWith p x l).sagEvents = s.sagEvents := rfl
@[simp] theorem replyWith_auditEndMade (p : Port) (x : Status) (l : List Byte) : (s.replyWith p x l).auditEndMade = s.auditEndMade := rfl
@[simp] theorem replyWith_due (p : Port) (x : Status) (l : List Byte) : (s.replyWith p x l).due = s.due := rfl
@[simp] theorem replyWith_ports (p : Port) (x : Status) (l : List Byte) : (s.replyWith p x l).ports = s.ports := rfl
@[simp] theorem replyWith_lineA (p : Port) (x : Status) (l : List Byte) : (s.replyWith p x l).lineA = s.lineA := rfl
@[simp] theorem replyWith_lineB (p : Port) (x : Status) (l : List Byte) : (s.replyWith p x l).lineB = s.lineB := rfl
@[simp] theorem replyWith_slots (p : Port) (x : Status) (l : List Byte) : (s.replyWith p x l).slots = s.slots := rfl
@[simp] theorem replyWith_staging (p : Port) (x : Status) (l : List Byte) : (s.replyWith p x l).staging = s.staging := rfl
@[simp] theorem replyWith_sealing (p : Port) (x : Status) (l : List Byte) : (s.replyWith p x l).sealing = s.sealing := rfl
@[simp] theorem replyWith_commissioning (p : Port) (x : Status) (l : List Byte) : (s.replyWith p x l).commissioning = s.commissioning := rfl

@[simp] theorem placeReply_pending (p : Port) (x : Status) (g : Byte) (l : List Byte) : (s.placeReply p x g l).pending = s.pending := rfl
@[simp] theorem placeReply_phase (p : Port) (x : Status) (g : Byte) (l : List Byte) : (s.placeReply p x g l).phase = s.phase := rfl
@[simp] theorem placeReply_rstn (p : Port) (x : Status) (g : Byte) (l : List Byte) : (s.placeReply p x g l).rstn = s.rstn := rfl
@[simp] theorem placeReply_pools (p : Port) (x : Status) (g : Byte) (l : List Byte) : (s.placeReply p x g l).pools = s.pools := rfl
@[simp] theorem placeReply_grants (p : Port) (x : Status) (g : Byte) (l : List Byte) : (s.placeReply p x g l).grants = s.grants := rfl
@[simp] theorem placeReply_ageList (p : Port) (x : Status) (g : Byte) (l : List Byte) : (s.placeReply p x g l).ageList = s.ageList := rfl
@[simp] theorem placeReply_waits (p : Port) (x : Status) (g : Byte) (l : List Byte) : (s.placeReply p x g l).waits = s.waits := rfl
@[simp] theorem placeReply_marks (p : Port) (x : Status) (g : Byte) (l : List Byte) : (s.placeReply p x g l).marks = s.marks := rfl
@[simp] theorem placeReply_tokens (p : Port) (x : Status) (g : Byte) (l : List Byte) : (s.placeReply p x g l).tokens = s.tokens := rfl
@[simp] theorem placeReply_watches (p : Port) (x : Status) (g : Byte) (l : List Byte) : (s.placeReply p x g l).watches = s.watches := rfl
@[simp] theorem placeReply_sessions (p : Port) (x : Status) (g : Byte) (l : List Byte) : (s.placeReply p x g l).sessions = s.sessions := rfl
@[simp] theorem placeReply_window (p : Port) (x : Status) (g : Byte) (l : List Byte) : (s.placeReply p x g l).window = s.window := rfl
@[simp] theorem placeReply_restartCount (p : Port) (x : Status) (g : Byte) (l : List Byte) : (s.placeReply p x g l).restartCount = s.restartCount := rfl
@[simp] theorem placeReply_startKind (p : Port) (x : Status) (g : Byte) (l : List Byte) : (s.placeReply p x g l).startKind = s.startKind := rfl
@[simp] theorem placeReply_signature (p : Port) (x : Status) (g : Byte) (l : List Byte) : (s.placeReply p x g l).signature = s.signature := rfl
@[simp] theorem placeReply_profile (p : Port) (x : Status) (g : Byte) (l : List Byte) : (s.placeReply p x g l).profile = s.profile := rfl
@[simp] theorem placeReply_lastTaken (p : Port) (x : Status) (g : Byte) (l : List Byte) : (s.placeReply p x g l).lastTaken = s.lastTaken := rfl
@[simp] theorem placeReply_answering (p : Port) (x : Status) (g : Byte) (l : List Byte) : (s.placeReply p x g l).answering = s.answering := rfl
@[simp] theorem placeReply_transit (p : Port) (x : Status) (g : Byte) (l : List Byte) : (s.placeReply p x g l).transit = s.transit := rfl
@[simp] theorem placeReply_expiryEvents (p : Port) (x : Status) (g : Byte) (l : List Byte) : (s.placeReply p x g l).expiryEvents = s.expiryEvents := rfl
@[simp] theorem placeReply_sagEvents (p : Port) (x : Status) (g : Byte) (l : List Byte) : (s.placeReply p x g l).sagEvents = s.sagEvents := rfl
@[simp] theorem placeReply_auditEndMade (p : Port) (x : Status) (g : Byte) (l : List Byte) : (s.placeReply p x g l).auditEndMade = s.auditEndMade := rfl
@[simp] theorem placeReply_due (p : Port) (x : Status) (g : Byte) (l : List Byte) : (s.placeReply p x g l).due = s.due := rfl
@[simp] theorem placeReply_lineA (p : Port) (x : Status) (g : Byte) (l : List Byte) : (s.placeReply p x g l).lineA = s.lineA := rfl
@[simp] theorem placeReply_lineB (p : Port) (x : Status) (g : Byte) (l : List Byte) : (s.placeReply p x g l).lineB = s.lineB := rfl
@[simp] theorem placeReply_slots (p : Port) (x : Status) (g : Byte) (l : List Byte) : (s.placeReply p x g l).slots = s.slots := rfl
@[simp] theorem placeReply_staging (p : Port) (x : Status) (g : Byte) (l : List Byte) : (s.placeReply p x g l).staging = s.staging := rfl
@[simp] theorem placeReply_sealing (p : Port) (x : Status) (g : Byte) (l : List Byte) : (s.placeReply p x g l).sealing = s.sealing := rfl
@[simp] theorem placeReply_commissioning (p : Port) (x : Status) (g : Byte) (l : List Byte) : (s.placeReply p x g l).commissioning = s.commissioning := rfl

@[simp] theorem putGrant_pending (i : GrantNo) (g : Grant) : (s.putGrant i g).pending = s.pending := rfl
@[simp] theorem putGrant_phase (i : GrantNo) (g : Grant) : (s.putGrant i g).phase = s.phase := rfl
@[simp] theorem putGrant_rstn (i : GrantNo) (g : Grant) : (s.putGrant i g).rstn = s.rstn := rfl
@[simp] theorem putGrant_pools (i : GrantNo) (g : Grant) : (s.putGrant i g).pools = s.pools := rfl
@[simp] theorem putGrant_ageList (i : GrantNo) (g : Grant) : (s.putGrant i g).ageList = s.ageList := rfl
@[simp] theorem putGrant_waits (i : GrantNo) (g : Grant) : (s.putGrant i g).waits = s.waits := rfl
@[simp] theorem putGrant_marks (i : GrantNo) (g : Grant) : (s.putGrant i g).marks = s.marks := rfl
@[simp] theorem putGrant_tokens (i : GrantNo) (g : Grant) : (s.putGrant i g).tokens = s.tokens := rfl
@[simp] theorem putGrant_watches (i : GrantNo) (g : Grant) : (s.putGrant i g).watches = s.watches := rfl
@[simp] theorem putGrant_sessions (i : GrantNo) (g : Grant) : (s.putGrant i g).sessions = s.sessions := rfl
@[simp] theorem putGrant_window (i : GrantNo) (g : Grant) : (s.putGrant i g).window = s.window := rfl
@[simp] theorem putGrant_restartCount (i : GrantNo) (g : Grant) : (s.putGrant i g).restartCount = s.restartCount := rfl
@[simp] theorem putGrant_startKind (i : GrantNo) (g : Grant) : (s.putGrant i g).startKind = s.startKind := rfl
@[simp] theorem putGrant_signature (i : GrantNo) (g : Grant) : (s.putGrant i g).signature = s.signature := rfl
@[simp] theorem putGrant_profile (i : GrantNo) (g : Grant) : (s.putGrant i g).profile = s.profile := rfl
@[simp] theorem putGrant_lastTaken (i : GrantNo) (g : Grant) : (s.putGrant i g).lastTaken = s.lastTaken := rfl
@[simp] theorem putGrant_answering (i : GrantNo) (g : Grant) : (s.putGrant i g).answering = s.answering := rfl
@[simp] theorem putGrant_transit (i : GrantNo) (g : Grant) : (s.putGrant i g).transit = s.transit := rfl
@[simp] theorem putGrant_expiryEvents (i : GrantNo) (g : Grant) : (s.putGrant i g).expiryEvents = s.expiryEvents := rfl
@[simp] theorem putGrant_sagEvents (i : GrantNo) (g : Grant) : (s.putGrant i g).sagEvents = s.sagEvents := rfl
@[simp] theorem putGrant_auditEndMade (i : GrantNo) (g : Grant) : (s.putGrant i g).auditEndMade = s.auditEndMade := rfl
@[simp] theorem putGrant_due (i : GrantNo) (g : Grant) : (s.putGrant i g).due = s.due := rfl
@[simp] theorem putGrant_ports (i : GrantNo) (g : Grant) : (s.putGrant i g).ports = s.ports := rfl
@[simp] theorem putGrant_lineA (i : GrantNo) (g : Grant) : (s.putGrant i g).lineA = s.lineA := rfl
@[simp] theorem putGrant_lineB (i : GrantNo) (g : Grant) : (s.putGrant i g).lineB = s.lineB := rfl
@[simp] theorem putGrant_slots (i : GrantNo) (g : Grant) : (s.putGrant i g).slots = s.slots := rfl
@[simp] theorem putGrant_staging (i : GrantNo) (g : Grant) : (s.putGrant i g).staging = s.staging := rfl
@[simp] theorem putGrant_sealing (i : GrantNo) (g : Grant) : (s.putGrant i g).sealing = s.sealing := rfl
@[simp] theorem putGrant_commissioning (i : GrantNo) (g : Grant) : (s.putGrant i g).commissioning = s.commissioning := rfl

@[simp] theorem setLine_pending (g : SagGroup) (x : SagLine) : (s.setLine g x).pending = s.pending := by cases g <;> rfl
@[simp] theorem setLine_phase (g : SagGroup) (x : SagLine) : (s.setLine g x).phase = s.phase := by cases g <;> rfl
@[simp] theorem setLine_rstn (g : SagGroup) (x : SagLine) : (s.setLine g x).rstn = s.rstn := by cases g <;> rfl
@[simp] theorem setLine_pools (g : SagGroup) (x : SagLine) : (s.setLine g x).pools = s.pools := by cases g <;> rfl
@[simp] theorem setLine_grants (g : SagGroup) (x : SagLine) : (s.setLine g x).grants = s.grants := by cases g <;> rfl
@[simp] theorem setLine_ageList (g : SagGroup) (x : SagLine) : (s.setLine g x).ageList = s.ageList := by cases g <;> rfl
@[simp] theorem setLine_waits (g : SagGroup) (x : SagLine) : (s.setLine g x).waits = s.waits := by cases g <;> rfl
@[simp] theorem setLine_marks (g : SagGroup) (x : SagLine) : (s.setLine g x).marks = s.marks := by cases g <;> rfl
@[simp] theorem setLine_tokens (g : SagGroup) (x : SagLine) : (s.setLine g x).tokens = s.tokens := by cases g <;> rfl
@[simp] theorem setLine_watches (g : SagGroup) (x : SagLine) : (s.setLine g x).watches = s.watches := by cases g <;> rfl
@[simp] theorem setLine_sessions (g : SagGroup) (x : SagLine) : (s.setLine g x).sessions = s.sessions := by cases g <;> rfl
@[simp] theorem setLine_window (g : SagGroup) (x : SagLine) : (s.setLine g x).window = s.window := by cases g <;> rfl
@[simp] theorem setLine_restartCount (g : SagGroup) (x : SagLine) : (s.setLine g x).restartCount = s.restartCount := by cases g <;> rfl
@[simp] theorem setLine_startKind (g : SagGroup) (x : SagLine) : (s.setLine g x).startKind = s.startKind := by cases g <;> rfl
@[simp] theorem setLine_signature (g : SagGroup) (x : SagLine) : (s.setLine g x).signature = s.signature := by cases g <;> rfl
@[simp] theorem setLine_profile (g : SagGroup) (x : SagLine) : (s.setLine g x).profile = s.profile := by cases g <;> rfl
@[simp] theorem setLine_lastTaken (g : SagGroup) (x : SagLine) : (s.setLine g x).lastTaken = s.lastTaken := by cases g <;> rfl
@[simp] theorem setLine_answering (g : SagGroup) (x : SagLine) : (s.setLine g x).answering = s.answering := by cases g <;> rfl
@[simp] theorem setLine_transit (g : SagGroup) (x : SagLine) : (s.setLine g x).transit = s.transit := by cases g <;> rfl
@[simp] theorem setLine_expiryEvents (g : SagGroup) (x : SagLine) : (s.setLine g x).expiryEvents = s.expiryEvents := by cases g <;> rfl
@[simp] theorem setLine_sagEvents (g : SagGroup) (x : SagLine) : (s.setLine g x).sagEvents = s.sagEvents := by cases g <;> rfl
@[simp] theorem setLine_auditEndMade (g : SagGroup) (x : SagLine) : (s.setLine g x).auditEndMade = s.auditEndMade := by cases g <;> rfl
@[simp] theorem setLine_due (g : SagGroup) (x : SagLine) : (s.setLine g x).due = s.due := by cases g <;> rfl
@[simp] theorem setLine_ports (g : SagGroup) (x : SagLine) : (s.setLine g x).ports = s.ports := by cases g <;> rfl
@[simp] theorem setLine_slots (g : SagGroup) (x : SagLine) : (s.setLine g x).slots = s.slots := by cases g <;> rfl
@[simp] theorem setLine_staging (g : SagGroup) (x : SagLine) : (s.setLine g x).staging = s.staging := by cases g <;> rfl
@[simp] theorem setLine_sealing (g : SagGroup) (x : SagLine) : (s.setLine g x).sealing = s.sealing := by cases g <;> rfl
@[simp] theorem setLine_commissioning (g : SagGroup) (x : SagLine) : (s.setLine g x).commissioning = s.commissioning := by cases g <;> rfl

/-! ## Reading a table after an update -/

theorem ext_vector {α : Type} {n : Nat} {v w : Vector α n} (h : ∀ i : Fin n, v[i] = w[i]) : v = w :=
  Vector.ext fun i hi => h ⟨i, hi⟩

@[simp] theorem tabulate_get {α : Type} {n : Nat} (f : Fin n → α) (i : Fin n) : (tabulate n f)[i] = f i := by
  simp [tabulate]

theorem set_get {α : Type} {n : Nat} (v : Vector α n) (i j : Fin n) (x : α) :
    (v.set i x)[j] = if j = i then x else v[j] := by
  simp only [Fin.getElem_fin, Vector.getElem_set, Fin.ext_iff, eq_comm]

@[simp] theorem port_modPort (p q : Port) (f : PortCtl → PortCtl) :
    (s.modPort p f).port q = if q = p then f (s.port p) else s.port q := set_get _ _ _ _

@[simp] theorem pool_modPool (n m : PoolNo) (f : Pool → Pool) :
    (s.modPool n f).pool m = if m = n then f (s.pool n) else s.pool m := set_get _ _ _ _

@[simp] theorem session_setSession (p q : Port) (x : Session) :
    (s.setSession p x).session q = if q = p then x else s.session q := set_get _ _ _ _

@[simp] theorem watch_setWatch (p q : Port) (m : Word) :
    (s.setWatch p m).watch q = if q = p then m else s.watch q := set_get _ _ _ _

@[simp] theorem mark_setMark (n m : PoolNo) (b : Bool) :
    (s.setMark n b).mark m = if m = n then b else s.mark m := set_get _ _ _ _

@[simp] theorem grantSlot_setGrantSlot (i j : GrantNo) (x : GrantSlot) :
    (s.setGrantSlot i x).grantSlot j = if j = i then x else s.grantSlot j := set_get _ _ _ _

@[simp] theorem waitSlot_setWaitSlot (i j : WaitNo) (x : WaitSlot) :
    (s.setWaitSlot i x).waitSlot j = if j = i then x else s.waitSlot j := set_get _ _ _ _

@[simp] theorem imageSlot_setImageSlot (i j : SlotNo) (x : ImageSlot) :
    (s.setImageSlot i x).imageSlot j = if j = i then x else s.imageSlot j := set_get _ _ _ _

@[simp] theorem token_setTokens (m : Word) (x : Token) (n : TokenNo) :
    (s.setTokens m x).token n = if names m n then x else s.token n := by
  simp only [setTokens, token, tabulate_get]

@[simp] theorem line_setLine (g h : SagGroup) (x : SagLine) :
    (s.setLine g x).line h = if h = g then x else s.line h := by cases g <;> cases h <;> rfl

theorem grant?_putGrant (i j : GrantNo) (g : Grant) :
    (s.putGrant i g).grant? j = if j = i then some g else s.grant? j := by
  simp only [grant?, putGrant, grantSlot_setGrantSlot]; split <;> simp_all

end Sys2Proof.Machine.State
end

