-- ==== Sys2Proof/Laws/Tables.lean ====
section
/-! SUPPORT. What the operations over masks, handles, tickets, grants, charged sums and wait records do: one lemma each. -/

namespace Sys2Proof.Machine

/-! ## Masks -/

theorem foldl_or_twoPow (f : TokenNo → Bool) (l : List TokenNo) (m : Word) (n : TokenNo) :
    (l.foldl (fun m i => if f i then m ||| BitVec.twoPow 16 i else m) m).getLsbD n =
      (m.getLsbD n || (decide (n ∈ l) && f n)) := by
  induction l generalizing m with
  | nil => simp
  | cons i rest ih =>
    rw [List.foldl_cons, ih]
    by_cases hf : f i
    · simp only [hf, if_true, BitVec.getLsbD_or, BitVec.getLsbD_twoPow]
      by_cases hn : n = i
      · subst hn; simp [hf]
      · have h2 : ¬ (i : Nat) = (n : Nat) := fun h => hn (Fin.ext h.symm)
        simp [hn, h2]
    · by_cases hn : n = i
      · subst hn; simp [hf]
      · simp [hf, hn]

/-- The mask made from a predicate names exactly the tokens it holds of (R67). -/
@[simp] theorem names_maskOf (f : TokenNo → Bool) (n : TokenNo) : names (maskOf f) n = f n := by
  unfold names maskOf
  rw [foldl_or_twoPow]
  simp

/-- Two masks that name the same tokens are equal. -/
theorem mask_ext {a b : Word} (h : ∀ n : TokenNo, names a n = names b n) : a = b :=
  BitVec.eq_of_getLsbD_eq fun i hi => h ⟨i, hi⟩

@[simp] theorem names_and (a b : Word) (n : TokenNo) : names (a &&& b) n = (names a n && names b n) := by simp [names]
@[simp] theorem names_or (a b : Word) (n : TokenNo) : names (a ||| b) n = (names a n || names b n) := by simp [names]
@[simp] theorem names_not (a : Word) (n : TokenNo) : names (~~~a) n = !names a n := by simp [names]
@[simp] theorem names_zero (n : TokenNo) : names 0 n = false := by simp [names]

/-! ## Operands -/

namespace State

theorem generation_slot {g k h i : Nat} (hg : 1 ≤ g) (hi : i < k) (hh : h = g * k + i) :
    h % k = i ∧ h / k = g ∧ h / k ≠ 0 := by
  subst hh
  have h1 : (g * k + i) % k = i := by rw [Nat.mul_comm, Nat.mul_add_mod]; exact Nat.mod_eq_of_lt hi
  have h2 : (g * k + i) / k = g := by
    rw [Nat.mul_comm, Nat.mul_add_div (by omega), Nat.div_eq_of_lt hi, Nat.add_zero]
  exact ⟨h1, h2, by omega⟩

/-- A handle resolves exactly to the live grant it names (R23, R24). -/
theorem resolveHandle_eq_some {s : State} {handle : Word} {i : GrantNo} {g : Grant} :
    s.resolveHandle handle.toNat = some (i, g) ↔ NamesGrant s handle i g := by
  constructor
  · intro h
    unfold resolveHandle at h
    simp only at h
    split at h
    · rename_i hc
      obtain ⟨h1, h2⟩ := hc
      simp only [Option.map_eq_some_iff, Prod.mk.injEq] at h
      obtain ⟨a, ha, rfl, rfl⟩ := h
      refine ⟨ha, by omega, ?_⟩
      rw [h2]
      show handle.toNat = handle.toNat / 64 * 64 + handle.toNat % 64
      omega
    · cases h
  · rintro ⟨hg, h1, hh⟩
    obtain ⟨e1, e2, e3⟩ := generation_slot h1 i.isLt hh
    have hi : (⟨handle.toNat % 64, Nat.mod_lt _ (by decide)⟩ : GrantNo) = i := Fin.ext e1
    unfold resolveHandle
    simp only [hi]
    rw [if_pos ⟨e3, by rw [e2]⟩, hg]
    rfl

/-- A handle that names no live grant resolves to none (R24). -/
theorem resolveHandle_eq_none {s : State} {handle : Word} :
    s.resolveHandle handle.toNat = none ↔ ∀ i g, ¬ NamesGrant s handle i g := by
  rw [Option.eq_none_iff_forall_ne_some]
  constructor
  · intro h i g hn; exact h _ (resolveHandle_eq_some.2 hn)
  · intro h ⟨i, g⟩ he; exact h i g (resolveHandle_eq_some.1 he)

/-- The requester's grant that a handle names (R24). -/
theorem ownGrant_eq_some {s : State} {p : Port} {handle : Word} {i : GrantNo} {g : Grant} :
    s.ownGrant p handle = some (i, g) ↔ NamesGrant s handle i g ∧ g.port = p := by
  unfold ownGrant
  rw [Option.filter_eq_some_iff, resolveHandle_eq_some]
  simp

theorem ownGrant_eq_none {s : State} {p : Port} {handle : Word} :
    s.ownGrant p handle = none ↔ ∀ i g, NamesGrant s handle i g → g.port ≠ p := by
  rw [Option.eq_none_iff_forall_ne_some]
  constructor
  · intro h i g hn hp; exact h _ (ownGrant_eq_some.2 ⟨hn, hp⟩)
  · intro h ⟨i, g⟩ he; exact h i g (ownGrant_eq_some.1 he).1 (ownGrant_eq_some.1 he).2

/-- A ticket resolves exactly to the live record it names (R40, R41). -/
theorem resolveTicket_eq_some {s : State} {ticket : Word} {w : WaitNo} {r : WaitRecord} :
    s.resolveTicket ticket.toNat = some (w, r) ↔ NamesRecord s ticket w r := by
  constructor
  · intro h
    unfold resolveTicket at h
    simp only at h
    split at h
    · rename_i hc
      obtain ⟨h1, h2⟩ := hc
      simp only [Option.map_eq_some_iff, Prod.mk.injEq] at h
      obtain ⟨a, ha, rfl, rfl⟩ := h
      refine ⟨ha, by omega, ?_⟩
      rw [h2]
      show ticket.toNat = ticket.toNat / 32 * 32 + ticket.toNat % 32
      omega
    · cases h
  · rintro ⟨hg, h1, hh⟩
    obtain ⟨e1, e2, e3⟩ := generation_slot h1 w.isLt hh
    have hi : (⟨ticket.toNat % 32, Nat.mod_lt _ (by decide)⟩ : WaitNo) = w := Fin.ext e1
    unfold resolveTicket
    simp only [hi]
    rw [if_pos ⟨e3, by rw [e2]⟩, hg]
    rfl

theorem resolveTicket_eq_none {s : State} {ticket : Word} :
    s.resolveTicket ticket.toNat = none ↔ ∀ w r, ¬ NamesRecord s ticket w r := by
  rw [Option.eq_none_iff_forall_ne_some]
  constructor
  · intro h i g hn; exact h _ (resolveTicket_eq_some.2 hn)
  · intro h ⟨i, g⟩ he; exact h i g (resolveTicket_eq_some.1 he)

/-- The requester's record that a ticket names (R41). -/
theorem ownRecord_eq_some {s : State} {p : Port} {ticket : Word} {w : WaitNo} {r : WaitRecord} :
    s.ownRecord p ticket = some (w, r) ↔ NamesRecord s ticket w r ∧ r.port = p := by
  unfold ownRecord
  rw [Option.filter_eq_some_iff, resolveTicket_eq_some]
  simp

theorem ownRecord_eq_none {s : State} {p : Port} {ticket : Word} :
    s.ownRecord p ticket = none ↔ ∀ w r, NamesRecord s ticket w r → r.port ≠ p := by
  rw [Option.eq_none_iff_forall_ne_some]
  constructor
  · intro h i g hn hp; exact h _ (ownRecord_eq_some.2 ⟨hn, hp⟩)
  · intro h ⟨i, g⟩ he; exact h i g (ownRecord_eq_some.1 he).1 (ownRecord_eq_some.1 he).2

/-- The defined pool a pool byte names (R2). -/
theorem definedPool?_eq_some {s : State} {b : Byte} {n : PoolNo} :
    s.definedPool? b = some n ↔ n.val = b.toNat ∧ (s.pool n).defined = true := by
  unfold definedPool?
  constructor
  · intro h
    split at h
    · split at h
      · rename_i hd; cases h; exact ⟨rfl, hd⟩
      · cases h
    · cases h
  · rintro ⟨hn, hd⟩
    have hlt : b.toNat < 8 := hn ▸ n.isLt
    have he : (⟨b.toNat, hlt⟩ : PoolNo) = n := Fin.ext hn.symm
    rw [dif_pos hlt, he, if_pos hd]

theorem definedPool?_eq_none {s : State} {b : Byte} :
    s.definedPool? b = none ↔ ∀ n : PoolNo, n.val = b.toNat → (s.pool n).defined = false := by
  rw [Option.eq_none_iff_forall_ne_some]
  constructor
  · intro h n hn
    cases hd : (s.pool n).defined with
    | false => rfl
    | true => exact absurd (definedPool?_eq_some.2 ⟨hn, hd⟩) (h n)
  · intro h n he
    obtain ⟨h1, h2⟩ := definedPool?_eq_some.1 he
    rw [h n h1] at h2
    cases h2

/-- The port an operand names (R112). -/
theorem portOf?_eq_some {b : Byte} {q : Port} : portOf? b = some q ↔ q.val = b.toNat := by
  unfold portOf?
  constructor
  · intro h; split at h <;> cases h; rfl
  · intro h; rw [dif_pos (h ▸ q.isLt)]; exact congrArg some (Fin.ext h.symm)

/-- A mask is in range unless it names a token numbered N or above (R67). -/
theorem maskInRange_iff {s : State} {mask : Word} : s.maskInRange mask = true ↔ ¬ MaskTooHigh s mask := by
  unfold maskInRange MaskTooHigh names
  rw [decide_eq_true_iff]
  constructor
  · rintro h ⟨n, hn, hle⟩
    have h2 : 2 ^ n.val ≤ mask.toNat := Nat.ge_two_pow_of_testBit (by simpa [BitVec.testBit_toNat] using hn)
    have h3 : 2 ^ s.profile.tokenCount ≤ 2 ^ n.val := Nat.pow_le_pow_right (by decide) hle
    omega
  · intro h
    by_contra hc
    obtain ⟨i, hi, hb⟩ := Nat.exists_ge_and_testBit_of_ge_two_pow (Nat.le_of_not_lt hc)
    rw [BitVec.testBit_toNat] at hb
    exact h ⟨⟨i, BitVec.lt_of_getLsbD hb⟩, hb, hi⟩

/-! ## Free slots -/

/-- The lowest FREE grant slot (R27). -/
theorem freeGrantSlot_eq_some {s : State} {i : GrantNo} :
    s.freeGrantSlot = some i ↔ s.grant? i = none ∧ ∀ j, j < i → (s.grant? j).isSome := by
  unfold freeGrantSlot
  rw [List.find?_eq_some_iff_getElem]
  constructor
  · rintro ⟨h1, k, hk, he, hall⟩
    simp only [List.getElem_finRange] at he hall
    refine ⟨by simpa using h1, fun j hj => ?_⟩
    have hk2 : i.val = k := by rw [← he]; rfl
    have hj2 : j.val < i.val := hj
    have hjk : j.val < k := by omega
    have := hall j.val hjk
    simpa using this
  · rintro ⟨h1, h2⟩
    refine ⟨by simp [h1], i.val, by simp, by simp, fun j hj => ?_⟩
    have := h2 ⟨j, by omega⟩ hj
    simpa using this

theorem freeGrantSlot_eq_none {s : State} : s.freeGrantSlot = none ↔ ∀ i, (s.grant? i).isSome := by
  simp [freeGrantSlot, List.find?_eq_none, Option.isSome_iff_ne_none]

/-- The lowest FREE wait slot (R44). -/
theorem freeWaitSlot_eq_some {s : State} {i : WaitNo} :
    s.freeWaitSlot = some i ↔ s.record? i = none ∧ ∀ j, j < i → (s.record? j).isSome := by
  unfold freeWaitSlot
  rw [List.find?_eq_some_iff_getElem]
  constructor
  · rintro ⟨h1, k, hk, he, hall⟩
    simp only [List.getElem_finRange] at he hall
    refine ⟨by simpa using h1, fun j hj => ?_⟩
    have hk2 : i.val = k := by rw [← he]; rfl
    have hj2 : j.val < i.val := hj
    have hjk : j.val < k := by omega
    have := hall j.val hjk
    simpa using this
  · rintro ⟨h1, h2⟩
    refine ⟨by simp [h1], i.val, by simp, by simp, fun j hj => ?_⟩
    have := h2 ⟨j, by omega⟩ hj
    simpa using this

theorem freeWaitSlot_eq_none {s : State} : s.freeWaitSlot = none ↔ ∀ i, (s.record? i).isSome := by
  simp [freeWaitSlot, List.find?_eq_none, Option.isSome_iff_ne_none]

end State

end Sys2Proof.Machine
end

