-- ==== Sys2Proof/Laws/Grants.lean ====
section
/-! SUPPORT. What charging, the grant table's operations, the wait table's operations, the freeing of tokens, service
passes and sheds do: one lemma each, and an induction over what a pass or a shed can do. -/

namespace Sys2Proof.Machine.State

/-! ## Charging -/

theorem addCharge_frame (s : State) (n : PoolNo) (k : Nat) : s.addCharge n k = { s with pools := (s.addCharge n k).pools } := by
  unfold addCharge; split <;> rfl

theorem subCharge_frame (s : State) (n : PoolNo) (k : Nat) : s.subCharge n k = { s with pools := (s.subCharge n k).pools } := by
  unfold subCharge; split <;> rfl

/-- Charging moves charged sums alone, whatever the parents are (R5). -/
theorem pool_addCharge_keeps (s : State) (n m : PoolNo) (k : Nat) :
    (s.addCharge n k).pool m = { s.pool m with charged := ((s.addCharge n k).pool m).charged } := by
  unfold addCharge
  split <;> simp only [pool_modPool] <;> (repeat' split) <;> simp_all

theorem pool_subCharge_keeps (s : State) (n m : PoolNo) (k : Nat) :
    (s.subCharge n k).pool m = { s.pool m with charged := ((s.subCharge n k).pool m).charged } := by
  unfold subCharge
  split <;> simp only [pool_modPool] <;> (repeat' split) <;> simp_all

/-- Charging raises the charged sum of the pool and of its root by the units, and no other (R5). -/
theorem pool_addCharge (s : State) (n m : PoolNo) (k : Nat) (h : (s.pool n).parent ≠ some n) :
    (s.addCharge n k).pool m =
      if m = n ∨ (s.pool n).parent = some m then { s.pool m with charged := (s.pool m).charged + k } else s.pool m := by
  unfold addCharge
  cases hp : (s.pool n).parent with
  | none => simp only [pool_modPool, reduceCtorEq, or_false]; split <;> simp_all
  | some r =>
    have hr : r ≠ n := fun e => h (by rw [hp, e])
    simp only [pool_modPool, Option.some.injEq, hr, if_false]
    by_cases h1 : m = r
    · subst h1; simp
    · have h2 : ¬ r = m := fun e => h1 e.symm
      by_cases h3 : m = n <;> simp [h1, h2, h3, hr.symm]

/-- Uncharging lowers the charged sum of the pool and of its root by the units, and no other (R5). -/
theorem pool_subCharge (s : State) (n m : PoolNo) (k : Nat) (h : (s.pool n).parent ≠ some n) :
    (s.subCharge n k).pool m =
      if m = n ∨ (s.pool n).parent = some m then { s.pool m with charged := (s.pool m).charged - k } else s.pool m := by
  unfold subCharge
  cases hp : (s.pool n).parent with
  | none => simp only [pool_modPool, reduceCtorEq, or_false]; split <;> simp_all
  | some r =>
    have hr : r ≠ n := fun e => h (by rw [hp, e])
    simp only [pool_modPool, Option.some.injEq, hr, if_false]
    by_cases h1 : m = r
    · subst h1; simp
    · have h2 : ¬ r = m := fun e => h1 e.symm
      by_cases h3 : m = n <;> simp [h1, h2, h3, hr.symm]

@[simp] theorem grantSlot_addCharge (s : State) (n : PoolNo) (k : Nat) (i : GrantNo) :
    (s.addCharge n k).grantSlot i = s.grantSlot i := by rw [addCharge_frame]; rfl
@[simp] theorem grantSlot_subCharge (s : State) (n : PoolNo) (k : Nat) (i : GrantNo) :
    (s.subCharge n k).grantSlot i = s.grantSlot i := by rw [subCharge_frame]; rfl

/-! ## The grant table -/

/-- Creating a grant touches the pools, the age list and one slot (R27). -/
theorem createGrant_frame (s : State) (i : GrantNo) (g : Grant) :
    s.createGrant i g = { s with
      pools := ((s.putGrant i g).addCharge g.pool g.units).pools
      ageList := s.ageList ++ [i]
      grants := s.grants.set i { s.grantSlot i with grant := some g } } := by
  unfold createGrant
  rw [addCharge_frame]; rfl

/-- Growing a grant touches the pools and one slot (R30). -/
theorem growGrant_frame (s : State) (i : GrantNo) (g : Grant) (v : Nat) :
    s.growGrant i g v = { s with
      pools := (s.growGrant i g v).pools
      grants := s.grants.set i { s.grantSlot i with grant := some { g with units := v } } } := by
  unfold growGrant
  rw [addCharge_frame]; rfl

/-- Shrinking a grant touches the pools and one slot (R31). -/
theorem shrinkGrant_frame (s : State) (i : GrantNo) (g : Grant) (v : Nat) :
    s.shrinkGrant i g v = { s with
      pools := (s.shrinkGrant i g v).pools
      grants := s.grants.set i { s.grantSlot i with grant := some { g with units := v, floor := min g.floor v } } } := by
  unfold shrinkGrant
  rw [subCharge_frame]; rfl

/-- Freeing a live grant touches the pools, the age list and one slot, whose generation advances (R32). -/
theorem freeGrant_live {s : State} {i : GrantNo} {g : Grant} (h : s.grant? i = some g) :
    s.freeGrant i = { s with
      pools := (s.freeGrant i).pools
      ageList := s.ageList.filter (· ≠ i)
      grants := s.grants.set i
        { generation := nextGeneration Config.lastGrantGeneration (s.grantSlot i).generation, grant := none } } := by
  unfold freeGrant
  rw [h]
  simp only
  rw [subCharge_frame]; rfl

/-- A FREE slot is left as it is. -/
theorem freeGrant_free {s : State} {i : GrantNo} (h : s.grant? i = none) : s.freeGrant i = s := by
  unfold freeGrant; rw [h]

theorem grantSlot_freeGrant {s : State} {i j : GrantNo} {g : Grant} (h : s.grant? i = some g) :
    (s.freeGrant i).grantSlot j =
      if j = i then { generation := nextGeneration Config.lastGrantGeneration (s.grantSlot i).generation, grant := none }
      else s.grantSlot j := by
  rw [freeGrant_live h]; exact set_get _ _ _ _

/-- After a freeing the slot holds no grant, and every other slot what it held. -/
theorem grant?_freeGrant (s : State) (i j : GrantNo) :
    (s.freeGrant i).grant? j = if j = i then none else s.grant? j := by
  cases h : s.grant? i with
  | none => rw [freeGrant_free h]; split <;> simp_all
  | some g => unfold grant?; rw [grantSlot_freeGrant h]; split <;> rfl

/-! ## The wait table -/

/-- Removing a live record touches its slot, whose generation advances, and its pool's queue (R46). -/
theorem removeRecord_live {s : State} {i : WaitNo} {r : WaitRecord} (h : s.record? i = some r) :
    s.removeRecord i = { s with
      waits := s.waits.set i
        { generation := nextGeneration Config.lastWaitGeneration (s.waitSlot i).generation, record := none }
      pools := s.pools.set r.pool { s.pool r.pool with queue := (s.pool r.pool).queue.filter (· ≠ i) } } := by
  unfold removeRecord; rw [h]; rfl

theorem removeRecord_free {s : State} {i : WaitNo} (h : s.record? i = none) : s.removeRecord i = s := by
  unfold removeRecord; rw [h]

/-- After a removal the slot holds no record, and every other slot what it held. -/
theorem record?_removeRecord (s : State) (i j : WaitNo) :
    (s.removeRecord i).record? j = if j = i then none else s.record? j := by
  cases h : s.record? i with
  | none => rw [removeRecord_free h]; split <;> simp_all
  | some r =>
    rw [removeRecord_live h]
    unfold record? waitSlot
    simp only [set_get]
    split <;> rfl

theorem grant?_removeRecord (s : State) (i : WaitNo) (j : GrantNo) : (s.removeRecord i).grant? j = s.grant? j := by
  cases h : s.record? i with
  | none => rw [removeRecord_free h]
  | some r => rw [removeRecord_live h]; rfl

/-- Queueing a record touches its slot and its pool's queue (R44). -/
theorem queueRecord_frame (s : State) (i : WaitNo) (r : WaitRecord) :
    s.queueRecord i r = { s with
      waits := s.waits.set i { s.waitSlot i with record := some r }
      pools := (s.queueRecord i r).pools } := rfl

/-! ## Service passes and sheds -/

/-- Whatever holds of a state and is kept by each thing a service pass can do holds after it (R47 to R56): it clears or
sets a mark, removes a record for quota, or grants a record that its pool, its port's quota and a FREE slot can hold. -/
theorem servicePass_induct {P : State → Prop}
    (mark : ∀ s n b, P s → P (s.setMark n b))
    (refuse : ∀ s w r, P s → s.record? w = some r → s.quotaRoom r.port r.pool < r.floor → P (s.refuseForQuota w r))
    (grant : ∀ s w r i, P s → s.record? w = some r → r.floor ≤ s.quotaRoom r.port r.pool → s.freeGrantSlot = some i →
      r.floor ≤ s.grantable r.port r.pool r.max → P (s.grantRecord w r i (s.grantable r.port r.pool r.max)))
    (s : State) (roots : List PoolNo) (h : P s) : P (s.servicePass roots) := by
  have weighed : ∀ (t : State) (r : WaitRecord),
      (t.weigh r = .overQuota → t.quotaRoom r.port r.pool < r.floor) ∧
      (∀ i units, t.weigh r = .grant i units → r.floor ≤ t.quotaRoom r.port r.pool ∧ t.freeGrantSlot = some i ∧
        units = t.grantable r.port r.pool r.max ∧ r.floor ≤ units) := by
    intro t r
    unfold weigh
    by_cases hq : t.quotaRoom r.port r.pool < r.floor
    · simp [hq]
    · simp only [hq, if_false]
      cases hf : t.freeGrantSlot with
      | none => simp
      | some i =>
        simp only
        split
        · rename_i hu
          refine ⟨by simp, fun j units hj => ?_⟩
          cases hj
          exact ⟨Nat.le_of_not_lt hq, rfl, rfl, hu⟩
        · simp
  have ordered : ∀ (fam : PoolNo) (l : List WaitNo) (t : State), P t → P (serveOrdered fam t l) := by
    intro fam l
    induction l with
    | nil => intro t ht; exact ht
    | cons w rest ih =>
      intro t ht
      unfold serveOrdered
      cases hr : t.record? w with
      | none => exact ih t ht
      | some r =>
        simp only
        cases hw : t.weigh r with
        | overQuota => exact ih _ (refuse t w r ht hr ((weighed t r).1 hw))
        | noSlot => exact mark t fam true ht
        | grant i units =>
          obtain ⟨h1, h2, rfl, h4⟩ := (weighed t r).2 i units hw
          exact ih _ (grant t w r i ht hr h1 h2 h4)
        | tooLittle => exact ht
  have fit : ∀ (fam : PoolNo) (l : List WaitNo) (t : State), P t → P (serveFit fam t l) := by
    intro fam l
    induction l with
    | nil => intro t ht; exact ht
    | cons w rest ih =>
      intro t ht
      unfold serveFit
      cases hr : t.record? w with
      | none => exact ih t ht
      | some r =>
        simp only
        cases hw : t.weigh r with
        | overQuota => exact ih _ (refuse t w r ht hr ((weighed t r).1 hw))
        | noSlot => exact mark t fam true ht
        | grant i units =>
          obtain ⟨h1, h2, rfl, h4⟩ := (weighed t r).2 i units hw
          exact ih _ (grant t w r i ht hr h1 h2 h4)
        | tooLittle => exact ih t ht
  have pools : ∀ (fam : PoolNo) (l : List PoolNo) (t : State), P t → P (l.foldl (servePool fam) t) := by
    intro fam l
    induction l with
    | nil => intro t ht; exact ht
    | cons n rest ih =>
      intro t ht
      refine ih _ ?_
      unfold servePool
      split
      · exact ordered fam _ t ht
      · exact fit fam _ t ht
  have families : ∀ (l : List PoolNo) (t : State), P t → P (l.foldl serveFamily t) := by
    intro l
    induction l with
    | nil => intro t ht; exact ht
    | cons n rest ih => intro t ht; exact ih _ (pools n _ _ (mark t n false ht))
  exact families _ s h

/-- Whatever holds of a state and is kept by each thing a shed can do holds after it (R87 to R91): it trims a grant to no
less than its floor, or revokes one. -/
theorem shed_induct {P : State → Prop}
    (trim : ∀ s i g v, P s → s.grant? i = some g → g.floor ≤ v → v < g.units →
      P ((s.shrinkGrant i g v).post g.port (.trimmed (s.handleOf i) v)))
    (revoke : ∀ s i g, P s → s.grant? i = some g → P ((s.freeGrant i).post g.port (.revoked (s.handleOf i) .shed)))
    (s : State) (n : PoolNo) (h : P s) : P (s.shed n) := by
  have trims : ∀ (l : List GrantNo) (t : State) (e : Nat), P t → P (t.trimPhase e l).1 := by
    intro l
    induction l with
    | nil => intro t e ht; exact ht
    | cons i rest ih =>
      intro t e ht
      unfold trimPhase
      split
      · exact ht
      · cases hg : t.grant? i with
        | none => exact ih t e ht
        | some g =>
          simp only
          split
          · exact ih t e ht
          · rename_i h1
            exact ih _ _ (trim t i g _ ht hg (by omega) (by omega))
  have revokes : ∀ (l : List GrantNo) (t : State) (e : Nat), P t → P (t.revokePhase e l) := by
    intro l
    induction l with
    | nil => intro t e ht; exact ht
    | cons i rest ih =>
      intro t e ht
      unfold revokePhase
      split
      · exact ht
      · cases hg : t.grant? i with
        | none => exact ih t e ht
        | some g => exact ih _ _ (revoke t i g ht hg)
  exact revokes _ _ _ (trims _ s _ h)

/-! ## Tokens -/

theorem foldl_tellWatcher (mask : Word) (l : List Port) (hl : l.Nodup) (s : State) :
    (∀ q, (l.foldl (tellWatcher mask) s).watch q = if q ∈ l then s.watch q &&& ~~~mask else s.watch q) ∧
    (l.foldl (tellWatcher mask) s).transit =
      s.transit ++ (l.filter fun q => s.watch q &&& mask != 0).map (fun q => (q, Notice.tokenFree (s.watch q &&& mask))) ∧
    l.foldl (tellWatcher mask) s = { s with
      watches := (l.foldl (tellWatcher mask) s).watches, transit := (l.foldl (tellWatcher mask) s).transit } := by
  induction l generalizing s with
  | nil => simp
  | cons p rest ih =>
    obtain ⟨hp, hr⟩ := List.nodup_cons.1 hl
    obtain ⟨h1, h2, h3⟩ := ih hr (tellWatcher mask s p)
    have hw : ∀ q, (tellWatcher mask s p).watch q = if q = p then s.watch q &&& ~~~mask else s.watch q := by
      intro q
      unfold tellWatcher
      split
      · rename_i hz
        split
        · rename_i hq
          subst hq
          apply mask_ext
          intro n
          have hn : names (s.watch q &&& mask) n = names 0 n := by rw [hz]
          simp only [names_and, names_zero, names_not] at hn ⊢
          revert hn
          cases names (s.watch q) n <;> cases names mask n <;> simp
        · rfl
      · rw [watch_setWatch]
        split
        · rename_i hq; rw [hq]
        · rfl
    have hne : ∀ q ∈ rest, q ≠ p := fun q hq e => hp (e ▸ hq)
    refine ⟨fun q => ?_, ?_, ?_⟩
    · rw [List.foldl_cons, h1, hw]
      by_cases hq : q = p
      · subst hq; simp [hp]
      · simp [hq]
    · rw [List.foldl_cons, h2]
      have hf : (rest.filter fun q => (tellWatcher mask s p).watch q &&& mask != 0) =
          rest.filter fun q => s.watch q &&& mask != 0 :=
        List.filter_congr fun q hq => by rw [hw, if_neg (hne q hq)]
      have hm : (rest.filter fun q => s.watch q &&& mask != 0).map
            (fun q => (q, Notice.tokenFree ((tellWatcher mask s p).watch q &&& mask))) =
          (rest.filter fun q => s.watch q &&& mask != 0).map
            (fun q => (q, Notice.tokenFree (s.watch q &&& mask))) :=
        List.map_congr_left fun q hq => by rw [hw, if_neg (hne q (List.mem_of_mem_filter hq))]
      rw [hf, hm]
      unfold tellWatcher
      by_cases hz : s.watch p &&& mask = 0
      · rw [if_pos hz, List.filter_cons_of_neg (by simpa using hz)]
      · rw [if_neg hz, List.filter_cons_of_pos (by simpa using hz)]
        simp only [post, setWatch_transit, List.append_assoc, List.map_cons, List.cons_append, List.nil_append]
    · rw [List.foldl_cons]
      generalize rest.foldl (tellWatcher mask) (tellWatcher mask s p) = v at h3
      rw [h3]
      unfold tellWatcher
      split <;> rfl

/-- One freeing of the tokens of a mask (R73): they are FREE, each watching port is told once of those it watched and they
leave its watch set, and nothing else changes. -/
theorem freeTokens_effect (s : State) (mask : Word) :
    (∀ n, (s.freeTokens mask).token n = if names mask n then .free else s.token n) ∧
    (∀ q, (s.freeTokens mask).watch q = s.watch q &&& ~~~mask) ∧
    (s.freeTokens mask).transit = s.transit ++ ((List.finRange 4).filter fun q => s.watch q &&& mask != 0).map
      (fun q => (q, Notice.tokenFree (s.watch q &&& mask))) ∧
    s.freeTokens mask = { s with
      tokens := (s.freeTokens mask).tokens, watches := (s.freeTokens mask).watches
      transit := (s.freeTokens mask).transit } := by
  obtain ⟨h1, h2, h3⟩ := foldl_tellWatcher mask (List.finRange 4) (List.nodup_finRange 4) (s.setTokens mask .free)
  have hf : s.freeTokens mask = (List.finRange 4).foldl (tellWatcher mask) (s.setTokens mask .free) := rfl
  rw [← hf] at h1 h2 h3
  refine ⟨fun n => ?_, fun q => ?_, h2, ?_⟩
  · rw [← token_setTokens]; rw [h3]; rfl
  · rw [h1]; simp [watch, setTokens]
  · rw [h3]; rfl

end Sys2Proof.Machine.State
end

