-- ==== Sys2Proof/Laws/Memory.lean ====
section
/-! SUPPORT. The canonical form of a memory: every operation keeps it; and what reading gives after each. -/

namespace Sys2Proof.Machine.Memory

theorem wfFrom_mono {m : Memory} {lo hi : Nat} (h : wfFrom hi m) (hle : lo ≤ hi) : wfFrom lo m := by
  cases m with
  | nil => rfl
  | cons c rest =>
    simp only [wfFrom, Bool.and_eq_true, decide_eq_true_eq] at h ⊢
    exact ⟨⟨⟨by omega, h.1.1.2⟩, h.1.2⟩, h.2⟩

/-- Below its first address a memory in canonical form reads 0xFF. -/
theorem read_below {m : Memory} {lo i : Nat} (h : wfFrom lo m) (hi : i < lo) : read m i = Config.unprogrammed := by
  induction m generalizing lo with
  | nil => rfl
  | cons c rest ih =>
    obtain ⟨a, b⟩ := c
    simp only [wfFrom, Bool.and_eq_true, decide_eq_true_eq] at h
    have hne : a ≠ i := by omega
    simp only [read, hne, if_false]
    exact ih h.2 (by omega)

theorem write_wfFrom {m : Memory} {lo i : Nat} {v : Byte} (h : wfFrom lo m) (hlo : lo ≤ i) (hi : i < 256) :
    wfFrom lo (write m i v) := by
  induction m generalizing lo with
  | nil =>
    by_cases hv : v = Config.unprogrammed
    · simp [write, hv, wfFrom]
    · simp [write, hv, wfFrom, hlo, hi]
  | cons c rest ih =>
    obtain ⟨a, b⟩ := c
    simp only [wfFrom, Bool.and_eq_true, decide_eq_true_eq, bne_iff_ne] at h
    obtain ⟨⟨⟨h1, h2⟩, h3⟩, h4⟩ := h
    unfold write
    split
    · rename_i hlt
      by_cases hv : v = Config.unprogrammed
      · simp [hv, wfFrom, h1, h2, h3, h4]
      · have : i + 1 ≤ a := hlt
        simp [hv, wfFrom, h2, h3, h4, hlo, hi, this]
    · split
      · rename_i _ he
        subst he
        by_cases hv : v = Config.unprogrammed
        · simp only [hv, if_true]; exact wfFrom_mono h4 (by omega)
        · simp [hv, wfFrom, h4, hlo, hi]
      · rename_i hlt hne
        have hr := ih h4 (by omega)
        simp [wfFrom, h1, h2, h3, hr]

/-- `write` keeps the canonical form. -/
theorem write_wf {m : Memory} {i : Nat} {v : Byte} (h : m.wf) (hi : i < 256) : (write m i v).wf :=
  write_wfFrom h (Nat.zero_le _) hi

/-- `writeAll` keeps the canonical form. -/
theorem writeAll_wf {m : Memory} {i : Nat} {vs : List Byte} (h : m.wf) (hi : i + vs.length ≤ 256) :
    (writeAll m i vs).wf := by
  induction vs generalizing m i with
  | nil => exact h
  | cons v vs ih =>
    simp only [List.length_cons] at hi
    exact ih (write_wf h (by omega)) (by omega)

/-- `program` keeps the canonical form. -/
theorem program_wf {m : Memory} {i : Nat} {v : Byte} (h : m.wf) (hi : i < 256) : (program m i v).wf := write_wf h hi

theorem filter_wfFrom {m : Memory} {lo : Nat} (p : Host.Cell → Bool) (h : wfFrom lo m) : wfFrom lo (m.filter p) := by
  induction m generalizing lo with
  | nil => rfl
  | cons c rest ih =>
    obtain ⟨a, b⟩ := c
    simp only [wfFrom, Bool.and_eq_true, decide_eq_true_eq, bne_iff_ne] at h
    rw [List.filter_cons]
    split
    · simp [wfFrom, h.1.1.1, h.1.1.2, h.1.2, ih h.2]
    · exact wfFrom_mono (ih h.2) (by omega)

/-- `imagePart` keeps the canonical form. -/
theorem imagePart_wf {m : Memory} (h : m.wf) : m.imagePart.wf := filter_wfFrom _ h

/-- Reading after a write. -/
theorem read_write {m : Memory} {lo i j : Nat} {v : Byte} (h : wfFrom lo m) :
    read (write m i v) j = if j = i then v else read m j := by
  induction m generalizing lo with
  | nil =>
    by_cases hv : v = Config.unprogrammed <;> by_cases hj : j = i
    · simp [write, read, hv, hj]
    · simp [write, read, hv, hj]
    · simp [write, read, hv, hj]
    · simp [write, read, hv, hj, Ne.symm hj]
  | cons c rest ih =>
    obtain ⟨a, b⟩ := c
    simp only [wfFrom, Bool.and_eq_true, decide_eq_true_eq, bne_iff_ne] at h
    obtain ⟨⟨⟨h1, h2⟩, h3⟩, h4⟩ := h
    unfold write
    split
    · rename_i hlt
      have hb : wfFrom a ((a, b) :: rest) := by simp [wfFrom, h2, h3, h4]
      by_cases hv : v = Config.unprogrammed
      · simp only [hv, if_true]
        split
        · rename_i hj; subst hj; exact read_below hb hlt
        · rfl
      · simp only [hv, if_false]
        conv_lhs => unfold read
        simp only [eq_comm]
    · split
      · rename_i _ he
        subst he
        by_cases hv : v = Config.unprogrammed
        · simp only [hv, if_true]
          split
          · rename_i hj; subst hj; exact read_below h4 (by omega)
          · rename_i hj; simp [read, Ne.symm hj]
        · by_cases hj : j = i
          · simp [hv, hj, read]
          · simp [hv, hj, read, Ne.symm hj]
      · rename_i hlt hne
        unfold read
        by_cases ha : a = j
        · have : j ≠ i := by omega
          simp [ha, this]
        · simp only [ha, if_false]; exact ih h4

/-- Reading after programming a byte: its bits only turn from 1 to 0 (R144). -/
theorem read_program {m : Memory} {i j : Nat} {v : Byte} (h : m.wf) :
    read (program m i v) j = if j = i then read m i &&& v else read m j := read_write h

/-- Reading after writing a list of bytes. -/
theorem read_writeAll {m : Memory} {i j : Nat} {vs : List Byte} (h : m.wf) (hi : i + vs.length ≤ 256) :
    read (writeAll m i vs) j = if i ≤ j ∧ j < i + vs.length then vs.getD (j - i) 0 else read m j := by
  induction vs generalizing m i with
  | nil => simp [writeAll]
  | cons v vs ih =>
    simp only [List.length_cons] at hi ⊢
    rw [writeAll, ih (write_wf h (by omega)) (by omega), read_write h]
    by_cases he : j = i
    · subst he; simp
    · by_cases hr : i + 1 ≤ j ∧ j < i + 1 + vs.length
      · have h2 : i ≤ j ∧ j < i + (vs.length + 1) := ⟨by omega, by omega⟩
        have h3 : j - i = (j - (i + 1)) + 1 := by omega
        simp only [hr, h2, h3, and_self, if_true, List.getD_cons_succ]
      · have h2 : ¬ (i ≤ j ∧ j < i + (vs.length + 1)) := by omega
        simp only [hr, h2, he, if_false]

/-- Reading the copy a seal works from (R157). -/
theorem read_imagePart (m : Memory) (a : Nat) : m.imagePart.read a = if a < 253 then m.read a else Config.unprogrammed := by
  induction m with
  | nil => simp [imagePart, read]
  | cons c rest ih =>
    obtain ⟨i, b⟩ := c
    simp only [imagePart] at ih ⊢
    by_cases hi : i < 253
    · simp only [List.filter_cons, hi, decide_true, if_true, read]
      by_cases ha : i = a
      · subst ha; simp [hi]
      · simp only [ha, if_false]; exact ih
    · simp only [List.filter_cons, hi, decide_false, read]
      by_cases ha : i = a
      · subst ha; simp only [hi, if_false] at ih ⊢; simpa using ih
      · simp only [ha, if_false]; simpa using ih

theorem sealAddress_lt (k : Nat) : sealAddress k < 256 := by unfold sealAddress; split <;> (try split) <;> (try split) <;> omega

/-- The writes of a seal keep the canonical form. -/
theorem sealWrites_wf {image m : Memory} (n : Nat) (h : m.wf) : (sealWrites image n m).wf := by
  induction n with
  | zero => exact h
  | succ n ih => exact program_wf ih (sealAddress_lt n)

/-- What a cut seal leaves is in canonical form. -/
theorem sealCutContents_wf {image m : Memory} (cut : SealCut) (h : m.wf) : (sealCutContents image cut m).wf := by
  unfold sealCutContents
  split
  · exact program_wf (sealWrites_wf _ h) (sealAddress_lt _)
  · exact sealWrites_wf _ h

/-- The addresses of a seal's 256 writes are the 256 addresses of a slot, each once (R157). -/
theorem sealAddress_inj {j k : Nat} (hj : j < 256) (hk : k < 256) (h : sealAddress j = sealAddress k) : j = k := by
  unfold sealAddress at h; split at h <;> (try split at h) <;> (try split at h) <;> (try split at h) <;> (try split at h) <;>
    (try split at h) <;> omega

/-- The high byte of a two-byte field (R146, R163). -/
theorem ofNat_div_256 (c : Word) : BitVec.ofNat 8 (c.toNat / 256) = c.extractLsb' 8 8 := by
  apply BitVec.eq_of_toNat_eq; simp [Nat.shiftRight_eq_div_pow]

/-- The low byte of a two-byte field (R146, R163). -/
theorem ofNat_toNat (c : Word) : BitVec.ofNat 8 c.toNat = c.extractLsb' 0 8 := by
  apply BitVec.eq_of_toNat_eq; simp

/-- The last three writes of a seal: the CRC-16, high byte and low byte, and the mark (R148, R157). -/
theorem sealByte_tail (image : Memory) :
    sealByte image 253 = (imageCrc image).extractLsb' 8 8 ∧ sealByte image 254 = (imageCrc image).extractLsb' 0 8 ∧
      sealByte image 255 = 0x5A :=
  ⟨(if_neg (by decide)).trans ((if_pos rfl).trans (ofNat_div_256 _)),
    (if_neg (by decide)).trans ((if_neg (by decide)).trans ((if_pos rfl).trans (ofNat_toNat _))),
    (if_neg (by decide)).trans ((if_neg (by decide)).trans (if_neg (by decide)))⟩

/-- A memory is blank when its 256 bytes read 0xFF (R144). -/
theorem isBlank_iff (m : Memory) : m.isBlank = true ↔ ∀ a, a < 256 → m.read a = 0xFF := by
  simp [isBlank, Config.unprogrammed]

/-- A slot's bytes after the first `n` writes of a seal: those reached are programmed, the others as they were (R157). -/
theorem read_sealWrites {image m : Memory} (h : m.wf) {n j : Nat} (hn : n ≤ 256) (hj : j < 256) :
    (sealWrites image n m).read (sealAddress j) =
      if j < n then m.read (sealAddress j) &&& sealByte image j else m.read (sealAddress j) := by
  induction n with
  | zero => rfl
  | succ n ih =>
    have ih := ih (by omega)
    rw [sealWrites, read_program (sealWrites_wf n h)]
    by_cases e : j = n
    · subst e; simp [ih]
    · have ha : sealAddress j ≠ sealAddress n := fun he => e (sealAddress_inj hj (by omega) he)
      rw [if_neg ha, ih]
      by_cases hl : j < n
      · rw [if_pos hl, if_pos (by omega)]
      · rw [if_neg hl, if_neg (by omega)]

/-- A slot's bytes after a seal cut at write `cut.writes`: that byte has turned some of its bits (R158, log entry 11). -/
theorem read_sealCutContents {image m : Memory} (cut : SealCut) (h : m.wf) {j : Nat} (hj : j < 256) :
    (sealCutContents image cut m).read (sealAddress j) = m.read (sealAddress j) &&&
      (if j < cut.writes then sealByte image j else if j = cut.writes then sealByte image j ||| cut.unprogrammed else 0xFF) := by
  have ones : ∀ b : Byte, b &&& 0xFF = b := by intro b; exact BitVec.and_allOnes
  unfold sealCutContents
  by_cases hc : cut.writes < 256
  · simp only [hc, if_true, Nat.min_eq_left (Nat.le_of_lt hc)]
    rw [read_program (sealWrites_wf _ h)]
    by_cases e : j = cut.writes
    · subst e; simp [read_sealWrites h (Nat.le_of_lt hc) hc]
    · have ha : sealAddress j ≠ sealAddress cut.writes := fun he => e (sealAddress_inj hj hc he)
      rw [if_neg ha, read_sealWrites h (Nat.le_of_lt hc) hj]
      by_cases hl : j < cut.writes
      · simp [hl]
      · simp only [hl, e, if_false]; exact (ones _).symm
  · have hm : min cut.writes 256 = 256 := by omega
    have hl : j < cut.writes := by omega
    simp only [hc, if_false, hm]
    rw [read_sealWrites h (Nat.le_refl _) hj]; simp [hj, hl]

/-- Turning bits of addresses of the slot to 0 keeps the canonical form (R144). -/
theorem programAll_wf {m : Memory} {turned : List Host.Cell} (h : m.wf) (hc : ∀ c ∈ turned, c.1 < 256) :
    (m.programAll turned).wf := by
  induction turned generalizing m with
  | nil => exact h
  | cons c rest ih => exact ih (program_wf h (hc c (by simp))) fun d hd => hc d (by simp [hd])

/-- A byte after bits were turned to 0: what the values given for its address leave of the byte of before (R144). -/
theorem read_programAll {m : Memory} {turned : List Host.Cell} (h : m.wf) (hc : ∀ c ∈ turned, c.1 < 256) (a : Nat) :
    (m.programAll turned).read a =
      (turned.filter fun c => c.1 == a).foldl (fun b c => b &&& c.2) (m.read a) := by
  induction turned generalizing m with
  | nil => rfl
  | cons c rest ih =>
    have hr := ih (program_wf (v := c.2) h (hc c (by simp))) fun d hd => hc d (by simp [hd])
    simp only [programAll, List.foldl_cons] at hr ⊢
    rw [hr, read_program h]
    by_cases e : c.1 = a
    · simp [e]
    · simp [e, Ne.symm e]

/-- Which writes of a seal read back as intended (R157). -/
theorem readsBack_iff {image m : Memory} {n : Nat} : State.readsBack image m n = true ↔
    ∀ k, k < n → m.read (sealAddress k) &&& sealByte image k = sealByte image k := by
  simp [State.readsBack]

/-- Every write of a seal into a slot that reads blank reads back as intended (R157). -/
theorem readsBack_of_isBlank {image m : Memory} (h : m.isBlank = true) (n : Nat) :
    State.readsBack image m n = true :=
  readsBack_iff.mpr fun k _ => by rw [(isBlank_iff m).mp h _ (sealAddress_lt k)]; exact BitVec.allOnes_and

/-- What a finished seal leaves is in canonical form. -/
theorem sealedContents_wf {w : Seal} {m n : Memory} {result : SealResult} (h : m.wf)
    (he : State.sealedContents w m result = some n) : n.wf := by
  cases result with
  | whole =>
    simp only [State.sealedContents] at he
    split at he
    · exact Option.some.inj he ▸ sealWrites_wf _ h
    · cases he
  | readBackDiffers k v =>
    simp only [State.sealedContents] at he
    split at he
    · exact Option.some.inj he ▸ program_wf (sealWrites_wf _ h) (sealAddress_lt k)
    · cases he
  | foundOtherwise turned =>
    simp only [State.sealedContents] at he
    split at he
    · rename_i hc
      exact Option.some.inj he ▸ programAll_wf (sealWrites_wf _ h) (by simpa using hc.2)
    · cases he

/-- The memories of the reset state are in canonical form. -/
theorem reset_wf : (∀ i, (State.reset.imageSlot i).contents.wf) ∧ State.reset.staging.wf := by decide

end Sys2Proof.Machine.Memory

namespace Sys2Proof.Machine

/-! ## Bits turn from 1 to 0 alone (R144) -/

theorem OnlyProgrammed.refl (m : Memory) : OnlyProgrammed m m := fun _ => BitVec.and_self.symm

theorem OnlyProgrammed.trans {m n o : Memory} (h : OnlyProgrammed m n) (k : OnlyProgrammed n o) : OnlyProgrammed m o :=
  fun a => by rw [k a, h a, BitVec.and_assoc, ← BitVec.and_assoc (m.read a) (m.read a), BitVec.and_self]

theorem OnlyProgrammed.of_program {m : Memory} (h : m.wf) (i : Nat) (v : Byte) : OnlyProgrammed m (m.program i v) := fun a => by
  rw [Memory.read_program h]
  split
  · rename_i e; rw [e, ← BitVec.and_assoc, BitVec.and_self]
  · exact BitVec.and_self.symm

theorem OnlyProgrammed.of_sealWrites (image : Memory) {m : Memory} (h : m.wf) :
    ∀ n, OnlyProgrammed m (sealWrites image n m)
  | 0 => OnlyProgrammed.refl m
  | n + 1 => (OnlyProgrammed.of_sealWrites image h n).trans (OnlyProgrammed.of_program (Memory.sealWrites_wf n h) _ _)

theorem OnlyProgrammed.of_programAll {m : Memory} {turned : List Host.Cell} (h : m.wf) (hc : ∀ c ∈ turned, c.1 < 256) :
    OnlyProgrammed m (m.programAll turned) := by
  induction turned generalizing m with
  | nil => exact OnlyProgrammed.refl m
  | cons c rest ih =>
    exact (OnlyProgrammed.of_program h c.1 c.2).trans (ih (Memory.program_wf h (hc c (by simp))) fun d hd => hc d (by simp [hd]))

/-- However a seal is cut, it turns bits of its slot from 1 to 0 alone (R144, R158). -/
theorem OnlyProgrammed.of_cutSeal (image : Memory) (cut : SealCut) {m : Memory} (h : m.wf) :
    OnlyProgrammed m (sealCutContents image cut m) := by
  unfold sealCutContents
  have hw := OnlyProgrammed.of_sealWrites image h (min cut.writes 256)
  split
  · exact hw.trans (OnlyProgrammed.of_program (Memory.sealWrites_wf _ h) _ _)
  · exact hw

/-- However a seal ends, it turns bits of its slot from 1 to 0 alone (R144, R157). -/
theorem OnlyProgrammed.of_endedSeal {w : Seal} {m n : Memory} {result : SealResult} (h : m.wf)
    (he : State.sealedContents w m result = some n) : OnlyProgrammed m n := by
  have hw := fun k => OnlyProgrammed.of_sealWrites w.image h k
  cases result with
  | whole =>
    simp only [State.sealedContents] at he
    split at he
    · exact Option.some.inj he ▸ hw 256
    · cases he
  | readBackDiffers k v =>
    simp only [State.sealedContents] at he
    split at he
    · exact Option.some.inj he ▸ (hw k).trans (OnlyProgrammed.of_program (Memory.sealWrites_wf _ h) _ _)
    · cases he
  | foundOtherwise turned =>
    simp only [State.sealedContents] at he
    split at he
    · rename_i hc
      exact Option.some.inj he ▸
        (hw 256).trans (OnlyProgrammed.of_programAll (Memory.sealWrites_wf _ h) (by simpa using hc.2))
    · cases he

end Sys2Proof.Machine
end

