-- ==== Sys2Proof/Laws/Work.lean ====
section
/-! SUPPORT. What the shared operations of the queue, the core's work items and the CSN rise do: one lemma each. -/

namespace Sys2Proof.Machine

/-! ## Changing a port controller twice -/

theorem State.modPort_modPort (s : State) (p : Port) (f g : PortCtl → PortCtl) :
    (s.modPort p f).modPort p g = s.modPort p fun c => g (f c) := by
  have h : (s.modPort p f).port p = f (s.port p) := by simp
  unfold State.modPort at *
  simp only [h, Vector.set_set]

theorem State.modPort_congr (s : State) (p : Port) (f g : PortCtl → PortCtl) (h : f (s.port p) = g (s.port p)) :
    s.modPort p f = s.modPort p g := by
  unfold State.modPort; rw [h]

/-- The flags byte of a port looks at its controller's notices and MISSED flag alone (R165). -/
theorem State.flags_modPort (s : State) (p q : Port) (f : PortCtl → PortCtl)
    (h1 : (f (s.port p)).notices = (s.port p).notices) (h2 : (f (s.port p)).missed = (s.port p).missed) :
    (s.modPort p f).flags q = s.flags q := by
  by_cases e : q = p
  · subst e; simp [flags, h1, h2, session]; rfl
  · simp [flags, e, session]; rfl

/-- Placing a reply after a change that leaves the notices and MISSED as they are (R164, R165). -/
theorem State.placeReply_modPort (s : State) (p : Port) (f : PortCtl → PortCtl) (status : Status) (tag : Byte)
    (payload : List Byte) (h1 : (f (s.port p)).notices = (s.port p).notices)
    (h2 : (f (s.port p)).missed = (s.port p).missed) :
    (s.modPort p f).placeReply p status tag payload =
      s.modPort p fun c => { f c with reply := some (replyIn s p status tag payload) } := by
  unfold placeReply
  rw [modPort_modPort, flags_modPort s p p f h1 h2]; rfl

/-! ## The rise of CSN -/

/-- A CSN rise on a transaction whose frame is examined runs its row's action on the state of `Rises` (R161, R162). -/
theorem csnRise_of_rises {s t : State} {p : Port} {mosi : List Byte} (h : Rises s t p mosi) (act : State → State) :
    csnRise s p mosi act = .next (act t) := by
  obtain ⟨x, hx, hk, rfl⟩ := h
  unfold csnRise
  rw [Option.mem_def.1 hx]
  simp only [hk, if_true, Host.Outcome.next.injEq]
  congr 1
  unfold State.consume State.closeTransaction
  split
  · simp only [State.modPort_modPort]
  · apply State.modPort_congr; simp_all

/-- Whatever the state, a CSN rise leaves the part as it is or runs the row's action on a state of `Rises`. -/
theorem csnRise_next (s : State) (p : Port) (mosi : List Byte) (act : State → State) :
    csnRise s p mosi act = .next s ∨ ∃ t, Rises s t p mosi ∧ csnRise s p mosi act = .next (act t) := by
  by_cases h : ∃ x ∈ (s.port p).transaction, x.kind = .fromSlot ∨ x.kind = .noReply
  · obtain ⟨x, hx, hk⟩ := h
    have hr : Rises s _ p mosi := ⟨x, hx, hk, rfl⟩
    exact .inr ⟨_, hr, csnRise_of_rises hr act⟩
  · left
    unfold csnRise
    split
    · rfl
    · rename_i x hx
      rw [if_neg fun hk => h ⟨x, hx, hk⟩]

/-- A taken frame's reload touches the port's counter and what is due of it (R106, R110). -/
theorem State.reloadLease_eq (s : State) (p : Port) :
    s.reloadLease p = { s.modPort p (fun c => { c with lease := reloaded s p }) with due := dueAfterFrame s p } := rfl

/-- Placing a reply after the reload: the reload moves neither the notices nor MISSED (R106, R164, R165). -/
theorem State.placeReply_reloadLease (s : State) (p : Port) (status : Status) (tag : Byte) (payload : List Byte) :
    (s.reloadLease p).placeReply p status tag payload = { s.modPort p (fun c =>
      { c with lease := reloaded s p, reply := some (replyIn s p status tag payload) }) with due := dueAfterFrame s p } := by
  have h := placeReply_modPort { s with due := dueAfterFrame s p } p (fun c => { c with lease := reloaded s p }) status tag
    payload rfl rfl
  exact h

/-! ## Resets -/

/-- Discarding work leaves every port controller fresh and nothing waiting, and touches nothing else (R127 to R129). -/
theorem State.discardWork_effect (s : State) :
    FreshPorts s s.discardWork ∧ NoWorkWaiting s.discardWork ∧ s.discardWork = { s with
      ports := s.discardWork.ports, answering := none, transit := [], expiryEvents := [], sagEvents := []
      auditEndMade := false, due := [] } :=
  ⟨fun _ => by simp only [discardWork, freshPorts, port, tabulate_get, PortCtl.fresh], ⟨rfl, rfl, rfl, rfl, rfl, rfl⟩, rfl⟩

/-- A cut seal had begun programming when one of its writes has written a value other than 0xFF (R157). -/
theorem sealBegun_iff {image : Memory} {cut : SealCut} :
    sealBegun image cut = true ↔ ∃ k, k < 256 ∧ sealCutByte image cut k ≠ 0xFF := by
  simp [sealBegun, Config.unprogrammed]

/-- What aborting a seal does, byte by byte; it touches nothing but the slots and the seal (R157, R158). -/
theorem State.abortSeal_effect (s : State) (cut : SealCut) (h : MemoryLaw s) :
    AbortsSeal s (s.abortSeal cut) cut ∧
      s.abortSeal cut = { s with slots := (s.abortSeal cut).slots, sealing := none } := by
  cases hw : s.sealing with
  | none =>
    have e : s.abortSeal cut = s := by unfold abortSeal; rw [hw]
    rw [e]
    refine ⟨⟨hw, fun _ => rfl, ?_⟩, by rw [← hw]⟩
    intro w hm; rw [hw] at hm; cases hm
  | some w =>
    generalize hx : ({ contents := sealCutContents w.image cut (s.imageSlot w.slot).contents
                       state := if sealBegun w.image cut then .damaged else (s.imageSlot w.slot).state } : ImageSlot) = x
    have e : s.abortSeal cut = { s.setImageSlot w.slot x with sealing := none } := by
      unfold abortSeal; rw [hw]; subst hx; rfl
    have hs : ∀ i, (s.abortSeal cut).imageSlot i = if i = w.slot then x else s.imageSlot i := fun i => by
      rw [e]; exact imageSlot_setImageSlot s w.slot i x
    refine ⟨⟨by rw [e], ?_, ?_⟩, by rw [e]; rfl⟩
    · intro hn; rw [hw] at hn; cases hn
    intro y hm
    rw [hw] at hm
    obtain rfl : w = y := Option.some.inj hm
    refine ⟨fun i hi => by rw [hs, if_neg hi], fun hb => ?_, fun hb => ?_, fun k hk => ?_⟩
    · rw [hs, if_pos rfl, ← hx]
      exact if_pos (sealBegun_iff.mpr hb)
    · rw [hs, if_pos rfl, ← hx]
      exact if_neg fun h => by obtain ⟨k, hk, hne⟩ := sealBegun_iff.mp h; exact hne (hb k hk)
    · rw [hs, if_pos rfl, ← hx]
      exact Memory.read_sealCutContents cut (h.1 w.slot) hk

/-! ## Disturbances of the image slots -/

/-- A disturbance turns bits of one byte of one slot to 0; every kept state, and everything but the slots, stays (R144, R145,
log entry 25). -/
theorem State.disturb_effect (s : State) (d : Disturbance) :
    s.disturb d = { s with slots := (s.disturb d).slots } ∧
      ∀ i, (s.disturb d).imageSlot i = { s.imageSlot i with
        contents := if i = d.slot then (s.imageSlot i).contents.program d.address d.kept else (s.imageSlot i).contents } := by
  refine ⟨rfl, fun i => ?_⟩
  rw [disturb, imageSlot_setImageSlot]
  split
  · rename_i h; rw [h]
  · rfl

/-- A disturbance keeps the canonical form of every slot. -/
theorem MemoryLaw.disturb {s : State} (h : MemoryLaw s) (d : Disturbance) : MemoryLaw (s.disturb d) := by
  refine ⟨fun i => ?_, h.2⟩
  rw [(s.disturb_effect d).2 i]
  show Memory.wf (if i = d.slot then _ else _)
  split
  · exact Memory.program_wf (h.1 i) d.address.isLt
  · exact h.1 i

/-- The disturbances of a tick touch nothing but the slots' contents (R145, log entry 25). -/
theorem State.disturbed_frame (s : State) (disturbed : List Disturbance) :
    disturbed.foldl disturb s = { s with slots := (disturbed.foldl disturb s).slots } ∧
      ∀ i, ((disturbed.foldl disturb s).imageSlot i).state = (s.imageSlot i).state := by
  induction disturbed generalizing s with
  | nil => exact ⟨rfl, fun _ => rfl⟩
  | cons d rest ih =>
    refine ⟨(ih (s.disturb d)).1, fun i => ((ih (s.disturb d)).2 i).trans ?_⟩
    rw [(s.disturb_effect d).2 i]

/-- The disturbances of a tick keep the canonical form of every slot. -/
theorem MemoryLaw.disturbed {s : State} (h : MemoryLaw s) (disturbed : List Disturbance) :
    MemoryLaw (disturbed.foldl State.disturb s) := by
  induction disturbed generalizing s with
  | nil => exact h
  | cons d rest ih => exact ih (h.disturb d)

/-- A byte of a slot after the disturbances of a tick: what the values given for it leave of the byte of before (R144, R145,
log entry 25). -/
theorem State.read_disturbed {s : State} (h : MemoryLaw s) (disturbed : List Disturbance) (i : SlotNo) (a : Nat) :
    ((disturbed.foldl disturb s).imageSlot i).contents.read a =
      (disturbed.filter fun d => d.slot == i && d.address.val == a).foldl (fun b d => b &&& d.kept)
        ((s.imageSlot i).contents.read a) := by
  induction disturbed generalizing s with
  | nil => rfl
  | cons d rest ih =>
    rw [List.foldl_cons, ih (h.disturb d), (s.disturb_effect d).2 i, List.filter_cons]
    by_cases hs : i = d.slot
    · subst hs
      by_cases ha : d.address.val = a
      · subst ha; simp [Memory.read_program (h.1 _)]
      · simp [Memory.read_program (h.1 _), ha, Ne.symm ha]
    · simp [hs, Ne.symm hs]

/-- The disturbances of a tick turn bits of the slots from 1 to 0 alone (R144, R145). -/
theorem State.onlyProgrammed_disturbed {s : State} (h : MemoryLaw s) (disturbed : List Disturbance) (i : SlotNo) :
    OnlyProgrammed (s.imageSlot i).contents ((disturbed.foldl disturb s).imageSlot i).contents := by
  induction disturbed generalizing s with
  | nil => exact OnlyProgrammed.refl _
  | cons d rest ih =>
    refine OnlyProgrammed.trans ?_ (ih (h.disturb d))
    rw [(s.disturb_effect d).2 i]
    show OnlyProgrammed _ (if i = d.slot then _ else _)
    split
    · exact OnlyProgrammed.of_program (h.1 i) _ _
    · exact OnlyProgrammed.refl _

/-! ## What is due -/

theorem State.settle_quiet {s : State} (h : s.due = []) : ({ s with due := [] } : State) = s := by rw [← h]

/-- With an empty due list a due step's row changes nothing, and one that is due comes about (log entry 6). -/
theorem dueStep_next (s : State) (d : Due) :
    dueStep s d = .next (if s.phase = .running ∧ d ∈ s.due then ({ s with due := s.due.erase d } : State).runDue d else s) := by
  unfold dueStep; split <;> rfl

/-- A due step touches the due list, the port controllers' counters and hand-on lists, the expiry and sag events, the
lines and the audit-end event, and nothing else. -/
theorem State.runDue_frame (s : State) (d : Due) :
    s.runDue d = { s with
      ports := (s.runDue d).ports, expiryEvents := (s.runDue d).expiryEvents, sagEvents := (s.runDue d).sagEvents
      lineA := (s.runDue d).lineA, lineB := (s.runDue d).lineB, auditEndMade := (s.runDue d).auditEndMade } := by
  cases d with
  | lease p => rfl
  | deadline t => rfl
  | audit => rfl
  | lineAsserted g => simp only [runDue, lineAsserts]; split <;> cases g <;> rfl
  | lineDeasserted g => simp only [runDue, lineDeasserts]; split <;> cases g <;> rfl
  | qualify g => simp only [runDue, qualifyRunsOut]; split <;> cases g <;> rfl
  | restore g => simp only [runDue, restoreRunsOut]; split <;> cases g <;> rfl

theorem State.foldl_runDue_frame (l : List Due) (s : State) :
    l.foldl runDue s = { s with
      ports := (l.foldl runDue s).ports, expiryEvents := (l.foldl runDue s).expiryEvents
      sagEvents := (l.foldl runDue s).sagEvents, lineA := (l.foldl runDue s).lineA, lineB := (l.foldl runDue s).lineB
      auditEndMade := (l.foldl runDue s).auditEndMade } := by
  induction l generalizing s with
  | nil => rfl
  | cons d rest ih =>
    rw [List.foldl_cons]
    generalize hu : s.runDue d = u
    have h1 := ih u
    have h2 : u = { s with
        ports := u.ports, expiryEvents := u.expiryEvents, sagEvents := u.sagEvents, lineA := u.lineA, lineB := u.lineB
        auditEndMade := u.auditEndMade } := by rw [← hu]; exact s.runDue_frame d
    generalize rest.foldl runDue u = v at h1
    rw [h1, h2]

/-- What settling touches: the due list and what due steps touch (log entry 6). -/
theorem State.settle_frame (s : State) :
    s.settle = { s with
      due := [], ports := s.settle.ports, expiryEvents := s.settle.expiryEvents, sagEvents := s.settle.sagEvents
      lineA := s.settle.lineA, lineB := s.settle.lineB, auditEndMade := s.settle.auditEndMade } :=
  foldl_runDue_frame s.due { s with due := [] }

/-! ## The end of the item before -/

theorem State.foldl_store_frame (l : List (Port × Notice)) (s : State) :
    l.foldl (fun u x => u.modPort x.1 (·.store x.2)) s =
      { s with ports := (l.foldl (fun u x => u.modPort x.1 (·.store x.2)) s).ports } := by
  induction l generalizing s with
  | nil => rfl
  | cons x rest ih =>
    rw [List.foldl_cons]
    exact ih (s.modPort x.1 (·.store x.2))

/-- Delivering the notices touches the port controllers and what is in transit (R119, R120). -/
theorem State.deliverPosts_frame (s : State) :
    s.deliverPosts = { s with transit := [], ports := s.deliverPosts.ports } :=
  foldl_store_frame s.transit { s with transit := [] }

/-- Storing a notice never makes a queue longer than 8, and touches notices and MISSED alone (R117, R120). -/
theorem PortCtl.store_effect (c : PortCtl) (n : Notice) :
    c.store n = { c with notices := (c.store n).notices, missed := (c.store n).missed } ∧
      (c.notices.length ≤ Config.noticeLimit → (c.store n).notices.length ≤ Config.noticeLimit) := by
  unfold store
  split
  · rename_i h; exact ⟨rfl, fun _ => by simp; omega⟩
  · exact ⟨rfl, id⟩

/-- Placing the answer touches the port controllers and the answer (R167). -/
theorem State.placeAnswer_frame (s : State) : s.placeAnswer = { s with answering := none, ports := s.placeAnswer.ports } := by
  unfold placeAnswer
  split
  · rename_i h; rw [← h]
  · rfl

/-- With no answer made, nothing is placed (R167). -/
theorem State.placeAnswer_none {s : State} (h : s.answering = none) : s.placeAnswer = s := by
  unfold placeAnswer; rw [h]

/-! ## The core takes work -/

/-- A request that the core takes is refused by the session check or has its command's effect (R102, R154, R175). -/
theorem coreRequest_taken {s t : State} {p : Port} {r : Request} (h : Taken s t p r) (effect : State → State) :
    coreRequest s p r effect = .next (match t.sessionRefusal p r.command with
      | some status => t.refuse p r.command status
      | none => effect t) := by
  obtain ⟨h, rfl⟩ := h
  unfold coreRequest
  simp only [h, if_true]
  generalize (s.ready.took p).sessionRefusal p r.command = x
  cases x <;> rfl

/-- A request that the core does not take now leaves the part as it is (log entry 2). -/
theorem coreRequest_not_taken {s : State} {p : Port} {r : Request} (h : s.ready.takes p r = false)
    (effect : State → State) : coreRequest s p r effect = .next s := by
  unfold coreRequest
  simp [h]

/-- Whatever the state, a core request answers a next state of one of three forms. -/
theorem coreRequest_next (s : State) (p : Port) (r : Request) (effect : State → State) :
    coreRequest s p r effect = .next s ∨
      ∃ t, Taken s t p r ∧ (coreRequest s p r effect = .next (effect t) ∨
        ∃ status, coreRequest s p r effect = .next (t.refuse p r.command status)) := by
  cases h : s.ready.takes p r with
  | false => exact .inl (coreRequest_not_taken h effect)
  | true =>
    refine .inr ⟨_, ⟨h, rfl⟩, ?_⟩
    rw [coreRequest_taken ⟨h, rfl⟩]
    split
    · exact .inr ⟨_, rfl⟩
    · exact .inl rfl

/-- The session check lets an ATTACHED port through outside commissioning state (R102). -/
theorem State.sessionRefusal_attached {t : State} {p : Port} (h : Attached t p) (c : Command) :
    t.sessionRefusal p c = none := by
  obtain ⟨h1, h2⟩ := h
  simp [sessionRefusal, h1, h2]

/-- A taken request of an ATTACHED port has its command's effect. -/
theorem coreRequest_attached {s t : State} {p : Port} {r : Request} (h : Taken s t p r) (ha : Attached t p)
    (effect : State → State) : coreRequest s p r effect = .next (effect t) := by
  rw [coreRequest_taken h, State.sessionRefusal_attached ha]

/-- A taken command that is answered in every session state has its effect outside commissioning state (R102). -/
theorem coreRequest_anySession {s t : State} {p : Port} {r : Request} (h : Taken s t p r)
    (hc : t.commissioning = false) (ha : anySession r.command = true) (effect : State → State) :
    coreRequest s p r effect = .next (effect t) := by
  rw [coreRequest_taken h]; simp [State.sessionRefusal, hc, ha]

/-- A taken commissioning command has its effect in commissioning state (R154). -/
theorem coreRequest_commissioning {s t : State} {p : Port} {r : Request} (h : Taken s t p r)
    (hc : t.commissioning = true) (ha : inCommissioning r.command = true) (effect : State → State) :
    coreRequest s p r effect = .next (effect t) := by
  rw [coreRequest_taken h]; simp [State.sessionRefusal, hc, ha]

/-- An event taken by the core (R119, R129). -/
theorem coreEvent_free {s t u : State} (h : Free s t) (event : State → Option State) (he : event t = some u) :
    coreEvent s event = .next u := by
  obtain ⟨h, rfl⟩ := h
  unfold coreEvent
  simp [h, he]

/-- Whatever the state, an event leaves the part as it is or takes what it finds. -/
theorem coreEvent_next (s : State) (event : State → Option State) :
    coreEvent s event = .next s ∨ ∃ t u, Free s t ∧ event t = some u ∧ coreEvent s event = .next u := by
  unfold coreEvent
  split
  · rename_i h
    split
    · rename_i u hu; exact .inr ⟨_, u, ⟨h, rfl⟩, hu, rfl⟩
    · exact .inl rfl
  · exact .inl rfl

/-- A refusal changes the answer alone (R175). -/
theorem State.refuse_eq (t : State) (p : Port) (c : Command) (status : Status) :
    t.refuse p c status = refusedWith t p status (payloadLength c) := rfl

/-- The first check that fails decides (R175). -/
theorem firstFailure_cons (passes : Bool) (status : Status) (rest : List (Bool × Status)) :
    firstFailure ((passes, status) :: rest) = if passes then firstFailure rest else some status := rfl

end Sys2Proof.Machine
end

