-- ==== Sys2Proof/Tests/Slice0.lean ====
section
/-! SUPPORT. Tests: the checks on operands, the check values of the CRCs, a few single steps, and for every statement with
hypotheses a state and operands that meet them. -/

namespace Sys2Proof.Tests

set_option Elab.async false
open Sys2Proof.Machine

/-! ## Operands that the checks refuse -/

theorem test_wellFormed_rejects_other_frames :
    (Instr.nop 0 [0x02, 0x00, 0x2A]).wellFormed = false ∧ (Instr.rpt 0 [0x01, 0x00, 0x15]).wellFormed = false ∧
    (Instr.ntf 0 [0x01, 0x00, 0x15]).wellFormed = false ∧ (Instr.fill 0 [0x01, 0x00, 0x15]).wellFormed = false ∧
    (Instr.requestTaken 0 [0x01, 0x00, 0x15]).wellFormed = false ∧
    (Instr.frameError 0 [0x01, 0x00, 0x15]).wellFormed = false ∧
    (Instr.unknown 0 [0x01, 0x00, 0x15]).wellFormed = false := by decide +kernel

theorem test_wellFormed_rejects_sizes :
    (Instr.notReady 0 [0x01] 2).wellFormed = false ∧ (Instr.stg 0 0 0 [0x01]).wellFormed = false ∧
    (Instr.sealEnd (.readBackDiffers 256 0)).wellFormed = false ∧
    (Instr.sealEnd (.foundOtherwise [(255, 0), (256, 0)])).wellFormed = false ∧ (Instr.warmReset ⟨257, 0⟩).wellFormed = false ∧
    (Instr.powerInterruption ⟨257, 0⟩).wellFormed = false := by decide +kernel

theorem test_wellFormed_accepts :
    (Instr.nop 0 [0x01, 0x00, 0x15]).wellFormed ∧ (Instr.fill 0 []).wellFormed ∧ (Instr.fill 0 [0xFF, 0x01]).wellFormed ∧
    (Instr.frameError 0 [0x01, 0x00, 0x14]).wellFormed ∧ (Instr.unknown 0 [0x04, 0x07]).wellFormed ∧
    (Instr.notReady 0 [0x01] 1).wellFormed ∧ (Instr.stg 0 0 0 (List.replicate 16 0)).wellFormed := by decide +kernel

/-! ## Check values -/

/-- The check value of the CRC-8 and the frame of a NOP (R163). -/
theorem test_crc8 :
    crc8 [0x31, 0x32, 0x33, 0x34, 0x35, 0x36, 0x37, 0x38, 0x39] = 0xF4 ∧ frameBytes 0x01 0x00 [] = [0x01, 0x00, 0x15] := by
  decide +kernel

/-- The check value of the CRC-16 (R148). -/
theorem test_crc16 : crc16 [0x31, 0x32, 0x33, 0x34, 0x35, 0x36, 0x37, 0x38, 0x39] = 0x29B1 := by decide +kernel

/-- An RSV frame written out by the layout of R173: pool 1, floor 2, maximum 258, wait 65535. -/
theorem test_rsv_layout :
    examine (frameBytes 0x20 0x07 [0x01, 0x00, 0x02, 0x01, 0x02, 0xFF, 0xFF]) = .request ⟨7, .rsv 1 2 258 65535⟩ := by
  decide +kernel

/-! ## A small part -/

/-- Pool 0 is an ORDERED root of group A, pool 1 a FIT branch of it, pool 2 an ORDERED root; the others are undefined. -/
def labPool (n : PoolNo) : PoolProfile :=
  match n.val with
  | 0 => { defined := true, parent := none, nominal := 100, derated := 60, group := some .a, policy := .ordered }
  | 1 => { defined := true, parent := some 0, nominal := 50, derated := 50, group := none, policy := .fit }
  | 2 => { defined := true, parent := none, nominal := 70, derated := 70, group := none, policy := .ordered }
  | _ => PoolProfile.undefined

/-- Port p has priority p; P2 has no right, P0 alone may supervise. -/
def labPort (p : Port) : PortProfile :=
  { priority := p, reserve := p != 2, interlock := p != 2, supervise := p == 0, leaseMin := 20, leaseMax := 1000
    quotas := tabulate 8 fun n => if n.val ≤ 1 then 80 else 0 }

def labProfile : Profile :=
  { Profile.unconfigured with
    version := 1, clock := 8000, pools := tabulate 8 labPool, ports := tabulate 4 labPort, tokenCount := 4
    sagA := { qualify := 2, restore := 3 }, sagB := { qualify := 2, restore := 3 }, auditTime := 100 }

/-- A session of the small part: ATTACHED with a lease of 500 ms. -/
def onLease : Session := { state := .attached, leasePeriod := 500, lapseCause := none }

/-- The part with that profile, every port ATTACHED. -/
def lab : State :=
  let s := State.reset.coldTables .cold labProfile
  { s with
    sessions := Vector.replicate 4 onLease
    ports := Vector.replicate 4 { PortCtl.fresh none [] with lease := some 500 } }

/-- A grant of P1. -/
def labGrant (state : GrantState) (pool : PoolNo) (units floor : Nat) : Grant :=
  { state := state, port := 1, pool := pool, units := units, floor := floor }

/-- A record of P1 for 10 to 90 units of pool 0. -/
def labRecord (priority : Fin 4) : WaitRecord :=
  { port := 1, pool := 0, floor := 90, max := 95, priority := priority, deadline := some 1, tag := 7 }

/-- The small part with an ACTIVE grant of 40 units in slot 0, whose handle is 64. -/
def labHeld : State := lab.createGrant 0 (labGrant .active 0 40 10)

/-- The small part with an AUDIT grant of 40 units in slot 0 and the audit window open. -/
def labAudit : State :=
  { lab.createGrant 0 (labGrant .audit 0 40 10) with window := { isOpen := true, remaining := 1 } }

/-- The small part with a record in wait slot 0, whose ticket is 32. -/
def labWaiting : State := lab.queueRecord 0 (labRecord 1)

/-- The small part in commissioning state. -/
def labStore : State := { State.reset with commissioning := true }

/-- The small part with every grant slot taken, by grants of P1 in pool 1. -/
def labFull : State := { lab with grants := Vector.replicate 64 { generation := 1, grant := some (labGrant .active 1 1 1) } }

/-- The part with a request waiting that is next in the rotation. -/
def asked (s : State) (p : Port) (r : Request) : State :=
  { s.modPort p fun c => { c with processing := some r, handedOn := [.request r] } with lastTaken := p + 3 }

/-- The part with a transaction in progress. -/
def talking (s : State) (p : Port) (kind : TransactionKind) : State :=
  s.modPort p fun c =>
    { c with transaction := some { kind := kind, reply := { status := .ok, tag := 1, flags := 0, payload := [] } } }

/-- An answer to `meets`: the hypotheses `h` of a statement about a taken request are met in the part `s`. -/
theorem meets (s : State) {p : Port} {r : Request} {h : State → Prop}
    (hs : (asked s p r).ready.takes p r = true ∧ h ((asked s p r).ready.took p)) : ∃ s t, Taken s t p r ∧ h t :=
  ⟨_, _, ⟨hs.1, rfl⟩, hs.2⟩

/-- The hypotheses of a statement about an event are met in the part `s`. -/
theorem meetsFree (s : State) {h : State → Prop} (hs : s.phase = .running ∧ h s.ready) : ∃ s t, Free s t ∧ h t :=
  ⟨_, _, ⟨hs.1, rfl⟩, hs.2⟩

/-- The state in which a frame is examined. -/
def heard (s : State) (p : Port) (mosi : List Byte) (x : Transaction) : State :=
  s.modPort p fun c =>
    { c with
      transaction := none
      miso := x.reply.shifted mosi.length
      reply := if x.kind = .fromSlot ∧ mosi ≠ [] then none else c.reply
      lastReply := if x.kind = .fromSlot ∧ mosi ≠ [] then some x.reply else c.lastReply }

/-- The hypotheses of a statement about a CSN rise are met in the part `s`. -/
theorem meetsRise (s : State) (x : Transaction) {p : Port} {mosi : List Byte} {h : State → Prop}
    (hs : (s.port p).transaction = some x ∧ (x.kind = .fromSlot ∨ x.kind = .noReply) ∧ h (heard s p mosi x)) :
    ∃ s t, Rises s t p mosi ∧ h t :=
  ⟨s, _, ⟨x, hs.1, hs.2.1, rfl⟩, hs.2.2⟩

/-- The core's answer after a step. -/
def answerOf (o : Result) : Option (Status × List Byte) :=
  match o with
  | .next s => s.answering.map fun a => (a.status, a.payload)
  | .fault _ => none
  | .refused _ => none

/-! ## Single steps -/

/-- RSV for 10 to 60 units of pool 1: its 50 units are granted in slot 0 (R9, R179). -/
theorem test_rsv_grants :
    answerOf (exec (.rsv 0 7 1 10 60 0) (asked lab 0 ⟨7, .rsv 1 10 60 0⟩)) = some (.ok, [0, 64, 0, 50, 0, 0]) := by
  decide +kernel

/-- RSV for a floor the pool cannot grant waits in wait slot 0 (R44). -/
theorem test_rsv_waits :
    answerOf (exec (.rsv 0 7 0 70 80 5) (asked labHeld 0 ⟨7, .rsv 0 70 80 5⟩)) = some (.queued, [0, 0, 0, 0, 0, 32]) := by
  decide +kernel

/-- ADJ from 40 units to 60 and to 5: the floor follows the units down (R30, R31). -/
theorem test_adj :
    answerOf (exec (.adj 1 7 64 60) (asked labHeld 1 ⟨7, .adj 64 60⟩)) = some (.ok, [0, 60, 0, 10]) ∧
    answerOf (exec (.adj 1 7 64 5) (asked labHeld 1 ⟨7, .adj 64 5⟩)) = some (.ok, [0, 5, 0, 5]) := by
  decide +kernel

/-- CNF and QGR of the AUDIT grant (R183, R184). -/
theorem test_cnf_qgr :
    answerOf (exec (.cnf 1 7 64) (asked labAudit 1 ⟨7, .cnf 64⟩)) = some (.ok, [0, 40, 0, 10]) ∧
    answerOf (exec (.qgr 3 7 64) (asked labAudit 3 ⟨7, .qgr 64⟩)) = some (.ok, [2, 1, 0, 0, 40, 0, 10]) := by
  decide +kernel

/-- QPL of the branch while the root holds a grant of 40 (R185). -/
theorem test_qpl :
    answerOf (exec (.qpl 1 7 1) (asked labHeld 1 ⟨7, .qpl 1⟩)) =
      some (.ok, [0, 0, 1, 0, 0, 50, 0, 50, 0, 50, 0, 0, 0, 50, 0, 0, 0, 0, 80]) := by
  decide +kernel

/-- CLM in mode ANY takes the FREE token and reports the other as a conflict (R69). -/
theorem test_clm :
    answerOf (exec (.clm 0 7 3 1 0) (asked (lab.setTokens 1 (.held 1)) 0 ⟨7, .clm 3 1 0⟩)) =
      some (.partly, [0, 2, 0, 1]) := by
  decide +kernel

/-- A derate of group A trims the grant of 40 and a second one of 40 to the derated 60 (R86 to R89). -/
theorem test_derate :
    (match exec (.derateEvent .a) { (labHeld.createGrant 1 (labGrant .active 0 40 10)) with sagEvents := [.derate .a] } with
      | .next s => s.transit == [(1, .trimmed 65 20)] && (s.pool 0).charged == 60
      | .fault _ => false
      | .refused _ => false) = true := by
  decide +kernel

/-- A tick brings the deadline of the record to 0, and its expiry is due (R58). -/
theorem test_tick :
    (match exec (.tick ⟨.low, .low⟩ []) labWaiting with
      | .next s => s.due == [.deadline 32]
      | .fault _ => false
      | .refused _ => false) = true := by
  decide +kernel

/-- A CSN rise on a NOP in the reset state's successor: CSN falls, the NOP is taken, the reply shifted was NO_REPLY. -/
theorem test_nop :
    (match exec (.csnFall 0) State.reset with
      | .next s =>
        match exec (.nop 0 [0x01, 0x00, 0x15]) s with
        | .next t => (t.port 0).miso == [0x14, 0x00, 0x00] && (t.port 0).reply.isSome
        | .fault _ => false
        | .refused _ => false
      | .fault _ => false
      | .refused _ => false) = true := by
  decide +kernel

/-- A transaction that a reset cut shifts its reply before the cut and 0xFF after it (R168). -/
theorem test_cut :
    (match exec (.notReady 0 [1, 2, 3] 1) (talking lab 0 .cut) with
      | .next s => (s.port 0).miso == [0x00, 0xFF, 0xFF]
      | .fault _ => false
      | .refused _ => false) = true := by
  decide +kernel

/-- The counter of P1 reaches 0 at a tick and P1's NOP comes before the expiry: the counter starts afresh and the expiry
does not happen. When the expiry comes first, the NOP reloads nothing (R110). -/
theorem test_frame_before_expiry :
    let s := (talking lab 1 .noReply).modPort 1 fun c => { c with lease := some 1 }
    let after := fun (l : List Instr) => l.foldl (fun s c => match exec c s with
      | .next t => t
      | .fault _ => s
      | .refused _ => s) s
    let nop := Instr.nop 1 (frameBytes 0x01 7 [])
    ((after [.tick ⟨.low, .low⟩ [], nop, .leaseExpiry 1]).port 1).lease = some 500 ∧
    ((after [.tick ⟨.low, .low⟩ [], nop, .leaseExpiry 1]).port 1).handedOn = [] ∧
    ((after [.tick ⟨.low, .low⟩ [], .leaseExpiry 1, nop]).port 1).lease = none ∧
    ((after [.tick ⟨.low, .low⟩ [], .leaseExpiry 1, nop]).port 1).handedOn = [.lapse] := by
  decide +kernel

/-- An expiry event of an earlier record finds a later record of the same ticket, with time left: it ends nothing (R59). -/
theorem test_stale_expiry :
    (match exec (.expiryEvent 32) { labWaiting with expiryEvents := [32] } with
      | .next s => s == labWaiting
      | .fault _ => false
      | .refused _ => false) = true := by
  decide +kernel

/-- Power leaves no notice of before in a queue (R127). -/
theorem test_power_on :
    (match exec .powerOn { (lab.modPort 1 fun c => { c with notices := [.lapsed .lease] }) with phase := .off } with
      | .next s => s.port 1 == PortCtl.fresh none [] && s.phase == .coldStarting && s.attn 1 == .low
      | .fault _ => false
      | .refused _ => false) = true := by
  decide +kernel

/-! ## The hypotheses of the statements are met -/

theorem witness_StepTakesFrontOfQueue : State.reset.pending = [] := rfl

theorem witness_CsnFallDecidesReply :
    (State.reset.phase = .running ∧ (State.reset.port 0).transaction = none ∧ (State.reset.port 0).processing = none ∧
      (State.reset.port 0).reply = none) ∧
    (∃ s : State, s.phase = .coldWaiting ∧ (s.port 0).transaction = none) ∧
    (∃ s : State, s.phase = .running ∧ (s.port 3).transaction = none ∧ (s.port 3).processing = some ⟨7, .det⟩) ∧
    ∃ s : State, s.phase = .running ∧ (s.port 3).transaction = none ∧ (s.port 3).processing = none ∧
      (s.port 3).reply.isSome := by
  refine ⟨by decide +kernel, ⟨{ State.reset with phase := .coldWaiting }, by decide +kernel⟩,
    ⟨asked lab 3 ⟨7, .det⟩, by decide +kernel⟩, ⟨lab.placeReply 3 .ok 0 [], by decide +kernel⟩⟩

/-- The reply of a transaction of the small part. -/
def spoken (kind : TransactionKind) : Transaction :=
  { kind := kind, reply := { status := .ok, tag := 1, flags := 0, payload := [] } }

theorem witness_NopIsAnsweredOk :
    ∃ s t, Rises s t 1 (frameBytes 0x01 7 [] ++ [0xFF, 0x01]) ∧ ¬ (t.commissioning = true ∧ (1 : Port) ≠ 0) :=
  meetsRise (talking lab 1 .fromSlot) (spoken .fromSlot) (by decide +kernel)

theorem witness_RptRepeatsLastReplyCopy :
    (∃ s t, Rises s t 1 (frameBytes 0x02 7 [] ++ [0xFF, 0x01]) ∧ t.commissioning = false ∧ (t.port 1).lastReply.isSome) ∧
    ∃ s t, Rises s t 1 (frameBytes 0x02 7 [] ++ [0xFF, 0x01]) ∧ t.commissioning = false ∧ (t.port 1).lastReply = none :=
  ⟨meetsRise (talking lab 1 .fromSlot) (spoken .fromSlot) (by decide +kernel),
    meetsRise (talking lab 1 .noReply) (spoken .noReply) (by decide +kernel)⟩

theorem witness_NtfFetchesOldestNotice :
    (∃ s t, Rises s t 1 (frameBytes 0x03 7 [] ++ [0xFF, 0x01]) ∧ t.commissioning = false ∧ (t.port 1).notices = []) ∧
    ∃ s t, Rises s t 1 (frameBytes 0x03 7 [] ++ [0xFF, 0x01]) ∧ t.commissioning = false ∧
      (t.port 1).notices = List.replicate 8 (.lapsed .lease) :=
  ⟨meetsRise (talking lab 1 .fromSlot) (spoken .fromSlot) (by decide +kernel),
    meetsRise (talking (lab.modPort 1 fun c => { c with notices := List.replicate 8 (.lapsed .lease) }) 1 .noReply)
      (spoken .noReply) (by decide +kernel)⟩

theorem witness_FillPlacesNothing : (∃ s t, Rises s t 1 [] ∧ True) ∧ ∃ s t, Rises s t 1 [0xFF] ∧ True :=
  ⟨meetsRise (talking lab 1 .fromSlot) (spoken .fromSlot) (by decide +kernel),
    meetsRise (talking lab 1 .fromSlot) (spoken .fromSlot) (by decide +kernel)⟩

theorem witness_RequestIsHandedOn :
    (Command.stg 0 (List.replicate 16 0)).wellFormed ∧
    (∃ s t, Rises s t 1 (Request.frame ⟨7, .det⟩ ++ [0x00, 0xFF]) ∧ ¬ (t.commissioning = true ∧ (1 : Port) ≠ 0)) ∧
    ∃ s t, Rises s t 0 (Request.frame ⟨7, .sel⟩) ∧ t.commissioning = true :=
  ⟨by decide +kernel, meetsRise (talking lab 1 .fromSlot) (spoken .fromSlot) (by decide +kernel),
    meetsRise (talking labStore 0 .noReply) (spoken .noReply) (by decide +kernel)⟩

theorem witness_BadFramesAreAnswered :
    (frameLength 0x00 = none ∧ ∃ s t, Rises s t 1 [0x00] ∧ True) ∧ (∃ s t, Rises s t 1 [0x00, 0x05] ∧ True) ∧
    (frameLength 0x01 = some 3 ∧ ∃ s t, Rises s t 1 [0x01, 0x05] ∧ True) ∧
    (crc8 ([0x01, 0x00, 0x14].take (3 - 1)) ≠ (([0x01, 0x00, 0x14] : List Byte).take 3).getLastD 0 ∧
      ∃ s t, Rises s t 1 [0x01, 0x00, 0x14] ∧ True) :=
  ⟨⟨by decide +kernel, meetsRise (talking lab 1 .fromSlot) (spoken .fromSlot) (by decide +kernel)⟩,
    meetsRise (talking lab 1 .fromSlot) (spoken .fromSlot) (by decide +kernel),
    ⟨by decide +kernel, meetsRise (talking lab 1 .fromSlot) (spoken .fromSlot) (by decide +kernel)⟩,
    ⟨by decide +kernel, meetsRise (talking lab 1 .fromSlot) (spoken .fromSlot) (by decide +kernel)⟩⟩

theorem witness_DiscardedTransactionsEnd :
    ((talking lab 0 .pending).port 0).transaction = some (spoken .pending) ∧
    ((talking lab 0 .notReady).port 0).transaction = some (spoken .notReady) ∧
    ((talking lab 0 .cut).port 0).transaction = some (spoken .cut) := by decide +kernel

theorem witness_CommissioningPortsAnswer :
    (∃ s t, Rises s t 1 (frameBytes 0x01 7 [] ++ [0xFF, 0x01]) ∧ t.commissioning = true) ∧
    (∃ s t, Rises s t 1 (frameBytes 0x02 7 [] ++ [0xFF, 0x01]) ∧ t.commissioning = true) ∧
    (∃ s t, Rises s t 1 (frameBytes 0x03 7 [] ++ [0xFF, 0x01]) ∧ t.commissioning = true) ∧
    (∃ s t, Rises s t 3 (Request.frame ⟨7, .qdv⟩ ++ [0x01]) ∧ t.commissioning = true) :=
  ⟨meetsRise (talking labStore 1 .noReply) (spoken .noReply) (by decide +kernel),
    meetsRise (talking labStore 1 .noReply) (spoken .noReply) (by decide +kernel),
    meetsRise (talking labStore 1 .noReply) (spoken .noReply) (by decide +kernel),
    meetsRise (talking labStore 3 .noReply) (spoken .noReply) (by decide +kernel)⟩

theorem witness_ReplyIsPlacedAfterNotices :
    let s := (asked lab 1 ⟨7, .det⟩).replyWith 1 .ok []
    s.phase = .running ∧ NoticeLaw s ∧ s.answering.isSome ∧ (s.port 1).processing = some ⟨7, .det⟩ := by
  unfold NoticeLaw; decide +kernel

theorem witness_NoticeIsStoredOrMissed :
    let s := lab.post 1 (.lapsed .lease)
    s.phase = .running ∧ s.transit.find? (fun x => x.1 == 1) = some (1, .lapsed .lease) := by decide +kernel

/-- STG is the one command that needs its operand's length. -/
theorem witness_FramesReadBackAsRequests :
    (Command.stg 0xFF (List.replicate 16 0xFF)).wellFormed ∧ (Command.rsv 0 0 0xFFFF 0x0102).wellFormed := by decide +kernel

theorem witness_SessionCheckComesFirst :
    (∃ s t, Taken s t 1 ⟨7, .det⟩ ∧ t.commissioning = false ∧ (t.session 1).state = .lapsed) ∧
    (∃ s t, Taken s t 1 ⟨7, .det⟩ ∧ t.commissioning = false ∧ (t.session 1).state = .detached) ∧
    (∃ s t, Taken s t 1 ⟨7, .det⟩ ∧ t.commissioning = false ∧ (t.session 1).state = .recovering) ∧
    (∃ s t, Taken s t 0 ⟨7, .qpt⟩ ∧ t.commissioning = true) :=
  ⟨meets (lab.setSession 1 { onLease with state := .lapsed }) (by decide +kernel),
    meets State.reset (by decide +kernel), meets (lab.setSession 1 { onLease with state := .recovering }) (by decide +kernel),
    meets labStore (by decide +kernel)⟩

theorem witness_RotationPicksNextWaitingPort :
    (asked lab 2 ⟨7, .det⟩).takes 2 ⟨7, .det⟩ ∧ lab.due = [] ∧ lab.transit = [] ∧ lab.answering = none := by
  decide +kernel

theorem witness_AttachAnswers :
    (∃ s t, Taken s t 0 ⟨7, .att 20⟩ ∧ t.commissioning = false ∧ t.profile.version = 0) ∧
    (∃ s t, Taken s t 0 ⟨7, .att 19⟩ ∧ t.commissioning = false ∧ t.profile.version ≠ 0 ∧ 19 < (t.portProfile 0).leaseMin) ∧
    (∃ s t, Taken s t 0 ⟨7, .att 1001⟩ ∧ t.commissioning = false ∧ t.profile.version ≠ 0 ∧
      (t.portProfile 0).leaseMax < 1001) ∧
    (∃ s t, Taken s t 0 ⟨7, .att 20⟩ ∧ t.commissioning = false ∧ t.profile.version ≠ 0 ∧
      (t.portProfile 0).leaseMin ≤ 20 ∧ 20 ≤ (t.portProfile 0).leaseMax) ∧
    (∃ s t, Taken s t 0 ⟨7, .att 1000⟩ ∧ t.commissioning = false ∧ t.profile.version ≠ 0 ∧
      (t.portProfile 0).leaseMin ≤ 1000 ∧ 1000 ≤ (t.portProfile 0).leaseMax) :=
  ⟨meets State.reset (by decide +kernel), meets lab (by decide +kernel), meets lab (by decide +kernel),
    meets lab (by decide +kernel), meets lab (by decide +kernel)⟩

/-- P1's ATT was handed on before its counter expired, and an EVC of P1 was taken first: the ATT attaches P1 again, and the lapse
event does not reach the new session (R109). A session that stayed ATTACHED receives it (R108). -/
theorem test_no_stale_lapse :
    let s := (asked lab 1 ⟨7, .att 500⟩).modPort 1 fun c => { c with handedOn := [.request ⟨7, .att 500⟩, .lapse] }
    let after := fun (s : State) => ([.att 1 7 500, .lapse 1] : List Instr).foldl (fun s c => match exec c s with
      | .next t => t
      | .fault _ => s
      | .refused _ => s) s
    ((after (s.setSession 1 { onLease with state := .lapsed, lapseCause := some .evicted })).session 1).state = .attached ∧
    ((after s).session 1).state = .lapsed := by
  decide +kernel

theorem witness_DetachReleasesEverything :
    (∃ s t, Taken s t 1 ⟨7, .det⟩ ∧ Attached t 1 ∧ AgeLaw t ∧ (t.grantsOf 1).length = 1) ∧
    ∃ s t, Taken s t 1 ⟨7, .det⟩ ∧ Attached t 1 ∧ AgeLaw t ∧ t.window.isOpen = true :=
  ⟨meets labHeld (by unfold AgeLaw; decide +kernel), meets labAudit (by unfold AgeLaw; decide +kernel)⟩

theorem witness_LapseReleasesEverything :
    (∃ s t, Free s t ∧ (t.port 1).handedOn = [.lapse] ∧ (t.session 1).state ≠ .attached) ∧
    ∃ s t, Free s t ∧ (t.port 1).handedOn = [.lapse] ∧ (t.session 1).state = .attached ∧ AgeLaw t ∧
      t.window.isOpen = true :=
  ⟨meetsFree ((lab.modPort 1 fun c => { c with handedOn := [.lapse] }).setSession 1 Session.initial) (by decide +kernel),
    meetsFree (labAudit.modPort 1 fun c => { c with handedOn := [.lapse] }) (by unfold AgeLaw; decide +kernel)⟩

theorem witness_EvictionLapsesNamedPort :
    (∃ s t, Taken s t 1 ⟨7, .evc 0⟩ ∧ Attached t 1 ∧ (t.portProfile 1).supervise = false) ∧
    (∃ s t, Taken s t 0 ⟨7, .evc 4⟩ ∧ Attached t 0 ∧ (t.portProfile 0).supervise = true) ∧
    (∃ s t, Taken s t 0 ⟨7, .evc 0⟩ ∧ Attached t 0 ∧ (t.portProfile 0).supervise = true) ∧
    (∃ s t, Taken s t 0 ⟨7, .evc 3⟩ ∧ Attached t 0 ∧ (t.portProfile 0).supervise = true ∧
      (t.session 3).state = .detached) ∧
    (∃ s t, Taken s t 0 ⟨7, .evc 3⟩ ∧ Attached t 0 ∧ (t.portProfile 0).supervise = true ∧
      (t.session 3).state = .lapsed) ∧
    (∃ s t, Taken s t 0 ⟨7, .evc 1⟩ ∧ Attached t 0 ∧ (t.portProfile 0).supervise = true ∧
      (t.session 1).state = .attached ∧ AgeLaw t) ∧
    (∃ s t, Taken s t 0 ⟨7, .evc 1⟩ ∧ Attached t 0 ∧ (t.portProfile 0).supervise = true ∧
      (t.session 1).state = .recovering ∧ AgeLaw t ∧ t.window.isOpen = true) :=
  ⟨meets lab (by decide +kernel), meets lab (by decide +kernel), meets lab (by decide +kernel),
    meets (lab.setSession 3 Session.initial) (by decide +kernel),
    meets (lab.setSession 3 { onLease with state := .lapsed }) (by decide +kernel),
    meets labHeld (by unfold AgeLaw; decide +kernel),
    meets (labAudit.setSession 1 { onLease with state := .recovering }) (by unfold AgeLaw; decide +kernel)⟩

theorem witness_ReserveChecksInOrder :
    (∃ s t, Taken s t 2 ⟨7, .rsv 0 1 1 0⟩ ∧ Attached t 2 ∧ (t.portProfile 2).reserve = false) ∧
    (∃ s t, Taken s t 0 ⟨7, .rsv 3 1 1 0⟩ ∧ Attached t 0 ∧ (t.portProfile 0).reserve = true ∧
      ∀ n : PoolNo, n.val = (3 : Byte).toNat → (t.pool n).defined = false) ∧
    (∃ s t, Taken s t 0 ⟨7, .rsv 8 1 1 0⟩ ∧ Attached t 0 ∧ (t.portProfile 0).reserve = true ∧
      ∀ n : PoolNo, n.val = (8 : Byte).toNat → (t.pool n).defined = false) ∧
    (∃ s t, Taken s t 0 ⟨7, .rsv 2 1 1 0⟩ ∧ Attached t 0 ∧ (t.pool 2).defined = true ∧ t.quota 0 2 = 0) ∧
    (∃ s t, Taken s t 0 ⟨7, .rsv 0 0 1 0⟩ ∧ Attached t 0 ∧ (t.pool 0).defined = true ∧ t.quota 0 0 ≠ 0) ∧
    (∃ s t, Taken s t 0 ⟨7, .rsv 0 2 1 0⟩ ∧ Attached t 0 ∧ (t.pool 0).defined = true ∧ t.quota 0 0 ≠ 0) ∧
    (∃ s t, Taken s t 0 ⟨7, .rsv 0 81 90 0⟩ ∧ Attached t 0 ∧ (t.pool 0).defined = true ∧
      t.quota 0 0 - t.held 0 0 < 81) ∧
    (∃ s t, Taken s t 0 ⟨7, .rsv 1 51 60 0⟩ ∧ Attached t 0 ∧ (t.pool 1).defined = true ∧
      51 ≤ t.quota 0 1 - t.held 0 1 ∧ (t.pool 1).nominal < 51) ∧
    (∃ s t, Taken s t 0 ⟨7, .rsv 1 50 60 0⟩ ∧ Attached t 0 ∧ (t.pool 1).defined = true ∧
      50 ≤ t.quota 0 1 - t.held 0 1 ∧ ∃ r ∈ (t.pool 1).parent, (t.pool r).nominal < 50) :=
  ⟨meets lab (by decide +kernel), meets lab (by decide +kernel), meets lab (by decide +kernel),
    meets lab (by decide +kernel), meets lab (by decide +kernel), meets lab (by decide +kernel),
    meets lab (by decide +kernel), meets lab (by decide +kernel),
    meets (lab.modPool 0 fun q => { q with nominal := 49 }) (by decide +kernel)⟩

/-- At the boundary the floor is the whole grantable amount. -/
theorem witness_ReserveGrantsAtOnce :
    ∃ s t, Taken s t 0 ⟨7, .rsv 1 50 60 0⟩ ∧ Attached t 0 ∧ FamilyLaw t ∧ ReserveChecksPass t 0 1 50 60 1 ∧
      50 = min 60 (min (t.available 1) (t.quota 0 1 - t.held 0 1)) ∧ AheadRule t 0 1 ∧ t.grant? 1 = none ∧
      ∀ j : GrantNo, j < 1 → (t.grant? j).isSome = true :=
  meets (lab.createGrant 0 { labGrant .active 2 40 10 with pool := 2 }) (by unfold FamilyLaw; decide +kernel)

theorem witness_ReserveWaitsOrIsRefused :
    (∃ s t, Taken s t 0 ⟨7, .rsv 0 61 80 0⟩ ∧ Attached t 0 ∧ ReserveChecksPass t 0 0 61 80 0 ∧
      t.available 0 < 61) ∧
    (∃ s t, Taken s t 0 ⟨7, .rsv 0 10 80 0⟩ ∧ Attached t 0 ∧ ReserveChecksPass t 0 0 10 80 0 ∧
      10 ≤ min 80 (min (t.available 0) (t.quota 0 0 - t.held 0 0)) ∧ AheadRule t 0 0 ∧ ∀ i, (t.grant? i).isSome = true) ∧
    (∃ s t, Taken s t 0 ⟨7, .rsv 0 10 80 1⟩ ∧ Attached t 0 ∧ ReserveChecksPass t 0 0 10 80 0 ∧
      (∀ i, (t.grant? i).isSome = true) ∧ ∀ w, (t.record? w).isSome = true) ∧
    (∃ s t, Taken s t 1 ⟨7, .rsv 0 10 80 1⟩ ∧ Attached t 1 ∧ ReserveChecksPass t 1 0 10 80 0 ∧ ¬ AheadRule t 1 0 ∧
      8 ≤ t.recordCount 1) ∧
    (∃ s t, Taken s t 3 ⟨7, .rsv 0 10 80 1⟩ ∧ Attached t 3 ∧ ReserveChecksPass t 3 0 10 80 0 ∧ ¬ AheadRule t 3 0 ∧
      t.recordCount 3 < 8 ∧ t.record? 1 = none ∧ (∀ v : WaitNo, v < 1 → (t.record? v).isSome = true) ∧ QueueLaw t) ∧
    ∃ s t, Taken s t 0 ⟨7, .rsv 0 10 80 65535⟩ ∧ Attached t 0 ∧ ReserveChecksPass t 0 0 10 80 0 ∧
      (∀ i, (t.grant? i).isSome = true) ∧ t.recordCount 0 < 8 ∧ t.record? 0 = none ∧ QueueLaw t :=
  ⟨meets labHeld (by decide +kernel), meets labFull (by decide +kernel),
    meets { labFull with waits := Vector.replicate 32 { generation := 1, record := some (labRecord 1) } } (by decide +kernel),
    meets { labWaiting with waits := Vector.replicate 32 { generation := 1, record := some (labRecord 1) } }
      (by decide +kernel),
    meets labWaiting (by unfold QueueLaw; decide +kernel), meets labFull (by unfold QueueLaw; decide +kernel)⟩

/-- No live grant of P0 is named by a handle. -/
theorem own_none {p : Port} {r : Request} {handle : Word}
    (h : ∃ s t, Taken s t p r ∧ Attached t p ∧ t.ownGrant p handle = none) :
    ∃ s t, Taken s t p r ∧ Attached t p ∧ ∀ i g, NamesGrant t handle i g → g.port ≠ p := by
  obtain ⟨s, t, h1, h2, h3⟩ := h
  exact ⟨s, t, h1, h2, State.ownGrant_eq_none.1 h3⟩

theorem witness_AdjustGrowsAllOrNothing :
    (∃ s t, Taken s t 1 ⟨7, .adj 64 0⟩ ∧ Attached t 1) ∧
    (∃ s t, Taken s t 0 ⟨7, .adj 64 1⟩ ∧ Attached t 0 ∧ ∀ i g, NamesGrant t 64 i g → g.port ≠ 0) ∧
    (∃ s t, Taken s t 1 ⟨7, .adj 64 1⟩ ∧ Attached t 1 ∧ NamesGrant t 64 0 (labGrant .audit 0 40 10)) ∧
    (∃ s t, Taken s t 1 ⟨7, .adj 64 40⟩ ∧ Attached t 1 ∧ NamesGrant t 64 0 (labGrant .active 0 40 10)) ∧
    (∃ s t, Taken s t 1 ⟨7, .adj 64 101⟩ ∧ Attached t 1 ∧ NamesGrant t 64 0 (labGrant .active 0 40 10) ∧
      t.available 0 < 101 - 40) ∧
    (∃ s t, Taken s t 1 ⟨7, .adj 64 81⟩ ∧ Attached t 1 ∧ NamesGrant t 64 0 (labGrant .active 0 40 10) ∧
      81 - 40 ≤ t.available 0 ∧ t.quota 1 0 - t.held 1 0 < 81 - 40) ∧
    (∃ s t, Taken s t 1 ⟨7, .adj 64 41⟩ ∧ Attached t 1 ∧ NamesGrant t 64 0 (labGrant .active 0 40 10) ∧
      41 - 40 ≤ t.available 0 ∧ 41 - 40 ≤ t.quota 1 0 - t.held 1 0 ∧ ¬ AheadRule t 1 0) ∧
    (∃ s t, Taken s t 1 ⟨7, .adj 64 80⟩ ∧ Attached t 1 ∧ NamesGrant t 64 0 (labGrant .active 0 40 10) ∧
      80 - 40 ≤ t.available 0 ∧ 80 - 40 ≤ t.quota 1 0 - t.held 1 0 ∧ AheadRule t 1 0 ∧ FamilyLaw t) :=
  ⟨meets labHeld (by decide +kernel), own_none (meets labHeld (by decide +kernel)), meets labAudit (by decide +kernel),
    meets labHeld (by decide +kernel), meets labHeld (by decide +kernel), meets labHeld (by decide +kernel),
    meets (labHeld.queueRecord 0 (labRecord 1)) (by decide +kernel), meets labHeld (by unfold FamilyLaw; decide +kernel)⟩

theorem witness_AdjustShrinksGrant :
    ∃ s t, Taken s t 1 ⟨7, .adj 64 39⟩ ∧ Attached t 1 ∧ FamilyLaw t ∧
      NamesGrant t 64 0 (labGrant .active 0 40 10) := meets labHeld (by unfold FamilyLaw; decide +kernel)

theorem witness_ReleaseAndRevokeFreeGrant :
    (∃ s t, Taken s t 0 ⟨7, .rel 64⟩ ∧ Attached t 0 ∧ ∀ i g, NamesGrant t 64 i g → g.port ≠ 0) ∧
    (∃ s t, Taken s t 1 ⟨7, .rvk 64⟩ ∧ Attached t 1 ∧ (t.portProfile 1).supervise = false) ∧
    (∃ s t, Taken s t 0 ⟨7, .rvk 128⟩ ∧ (Attached t 0 ∧ (t.portProfile 0).supervise = true) ∧
      ∀ i g, ¬ NamesGrant t 128 i g) ∧
    (∃ s t, Taken s t 1 ⟨7, .rel 64⟩ ∧ Attached t 1 ∧ NamesGrant t 64 0 (labGrant .active 0 40 10)) ∧
    (∃ s t, Taken s t 0 ⟨7, .rvk 64⟩ ∧ Attached t 0 ∧ (t.portProfile 0).supervise = true ∧
      NamesGrant t 64 0 (labGrant .active 0 40 10)) ∧
    (∃ s t, Taken s t 1 ⟨7, .rel 64⟩ ∧ Attached t 1 ∧ NamesGrant t 64 0 (labGrant .audit 0 40 10) ∧ FamilyLaw t) ∧
    (∃ s t, Taken s t 0 ⟨7, .rvk 64⟩ ∧ Attached t 0 ∧ (t.portProfile 0).supervise = true ∧
      NamesGrant t 64 0 (labGrant .audit 0 40 10) ∧ FamilyLaw t ∧ (t.session 1).state = .recovering) := by
  obtain ⟨s, t, h1, h2, h3⟩ : ∃ s t, Taken s t 0 ⟨7, .rvk 128⟩ ∧
      (Attached t 0 ∧ (t.portProfile 0).supervise = true) ∧ t.resolveHandle (128 : Word).toNat = none :=
    meets labHeld (by decide +kernel)
  exact ⟨own_none (meets labHeld (by decide +kernel)), meets labHeld (by decide +kernel),
    ⟨s, t, h1, h2, State.resolveHandle_eq_none.1 h3⟩, meets labHeld (by decide +kernel), meets labHeld (by decide +kernel),
    meets labAudit (by unfold FamilyLaw; decide +kernel),
    meets (labAudit.setSession 1 { onLease with state := .recovering }) (by unfold FamilyLaw; decide +kernel)⟩

/-- The record of P1 that has made its expiry event. -/
def spentRecord : WaitRecord := { labRecord 1 with deadline := some 0 }

/-- The small part with that record in wait slot 0. -/
def labSpent : State := lab.queueRecord 0 spentRecord

theorem witness_CancelAndExpiryEndRecord :
    (∃ s t, Taken s t 0 ⟨7, .can 32⟩ ∧ Attached t 0 ∧ ∀ w r, NamesRecord t 32 w r → r.port ≠ 0) ∧
    (∃ s t, Free s t ∧ (64 : Word).toNat ∈ t.expiryEvents ∧ ∀ w r, ¬ NamesRecord t 64 w r) ∧
    (∃ s t, Taken s t 1 ⟨7, .can 32⟩ ∧ Attached t 1 ∧ NamesRecord t 32 0 (labRecord 1) ∧
      (t.pool 0).queue.head? = some 0) ∧
    (∃ s t, Taken s t 1 ⟨7, .can 33⟩ ∧ Attached t 1 ∧ NamesRecord t 33 1 (labRecord 1) ∧
      (t.pool 0).queue.head? ≠ some 1) ∧
    (∃ s t, Free s t ∧ (32 : Word).toNat ∈ t.expiryEvents ∧ NamesRecord t 32 0 (labRecord 1) ∧
      (labRecord 1).deadline ≠ some 0) ∧
    (∃ s t, Free s t ∧ (32 : Word).toNat ∈ t.expiryEvents ∧ NamesRecord t 32 0 spentRecord ∧
      (t.pool 0).queue.head? = some 0) ∧
    (∃ s t, Free s t ∧ (33 : Word).toNat ∈ t.expiryEvents ∧ NamesRecord t 33 1 spentRecord ∧
      (t.pool 0).queue.head? ≠ some 1) := by
  obtain ⟨s, t, h1, h2, h3⟩ : ∃ s t, Taken s t 0 ⟨7, .can 32⟩ ∧ Attached t 0 ∧ t.ownRecord 0 32 = none :=
    meets labWaiting (by decide +kernel)
  obtain ⟨u, v, h4, h5, h6⟩ : ∃ s t, Free s t ∧ (64 : Word).toNat ∈ t.expiryEvents ∧
      t.resolveTicket (64 : Word).toNat = none := meetsFree { labWaiting with expiryEvents := [64] } (by decide +kernel)
  exact ⟨⟨s, t, h1, h2, State.ownRecord_eq_none.1 h3⟩, ⟨u, v, h4, h5, State.resolveTicket_eq_none.1 h6⟩,
    meets labWaiting (by decide +kernel), meets (labWaiting.queueRecord 1 (labRecord 1)) (by decide +kernel),
    meetsFree { labWaiting with expiryEvents := [32] } (by decide +kernel),
    meetsFree { labSpent with expiryEvents := [32] } (by decide +kernel),
    meetsFree { labSpent.queueRecord 1 spentRecord with expiryEvents := [33] } (by decide +kernel)⟩

theorem witness_ConfirmMakesGrantActive :
    (∃ s t, Taken s t 0 ⟨7, .cnf 64⟩ ∧ Attached t 0 ∧ ∀ i g, NamesGrant t 64 i g → g.port ≠ 0) ∧
    (∃ s t, Taken s t 1 ⟨7, .cnf 64⟩ ∧ Attached t 1 ∧ NamesGrant t 64 0 (labGrant .active 0 40 10)) ∧
    (∃ s t, Taken s t 1 ⟨7, .cnf 64⟩ ∧ Attached t 1 ∧ NamesGrant t 64 0 (labGrant .audit 0 40 10)) :=
  ⟨own_none (meets labAudit (by decide +kernel)), meets labHeld (by decide +kernel), meets labAudit (by decide +kernel)⟩

theorem witness_QueriesReportAndChangeNothing :
    (∃ s t, Taken s t 0 ⟨7, .qgr 128⟩ ∧ Attached t 0 ∧ ∀ i g, ¬ NamesGrant t 128 i g) ∧
    (∃ s t, Taken s t 0 ⟨7, .qgr 64⟩ ∧ Attached t 0 ∧ NamesGrant t 64 0 (labGrant .active 0 40 10)) ∧
    (∃ s t, Taken s t 0 ⟨7, .qpl 8⟩ ∧ Attached t 0 ∧ ∀ n : PoolNo, n.val = (8 : Byte).toNat → (t.pool n).defined = false) ∧
    (∃ s t, Taken s t 0 ⟨7, .qpl 0⟩ ∧ Attached t 0 ∧ (t.pool 0).defined = true) ∧
    (∃ s t, Taken s t 0 ⟨7, .qdv⟩ ∧ t.commissioning = true) := by
  obtain ⟨s, t, h1, h2, h3⟩ : ∃ s t, Taken s t 0 ⟨7, .qgr 128⟩ ∧ Attached t 0 ∧
      t.resolveHandle (128 : Word).toNat = none := meets labHeld (by decide +kernel)
  exact ⟨⟨s, t, h1, h2, State.resolveHandle_eq_none.1 h3⟩, meets labHeld (by decide +kernel), meets lab (by decide +kernel),
    meets lab (by decide +kernel), meets labStore (by decide +kernel)⟩

theorem witness_QueryPortReportsAndClearsMissed :
    ∃ s t, Taken s t 1 ⟨7, .qpt⟩ ∧ t.commissioning = false ∧ (∀ n, names 1 n = true ↔ t.token n = .held 1) ∧
      ∀ n, names 2 n = true ↔ t.token n = .audit 1 :=
  meets ((lab.setTokens 1 (.held 1)).setTokens 2 (.audit 1)) (by decide +kernel)

/-- Token 0 is HELD by P1, token 1 AUDIT by P0, the others FREE. -/
def labTokens : State := (lab.setTokens 1 (.held 1)).setTokens 2 (.audit 0)

theorem witness_ClaimTakesFreeTokens :
    (∃ s t, Taken s t 2 ⟨7, .clm 1 0 0⟩ ∧ Attached t 2 ∧ (t.portProfile 2).interlock = false) ∧
    (∃ s t, Taken s t 0 ⟨7, .clm 16 0 0⟩ ∧ Attached t 0 ∧ (t.portProfile 0).interlock = true ∧ MaskTooHigh t 16) ∧
    (∃ s t, Taken s t 0 ⟨7, .clm 8 2 0⟩ ∧ Attached t 0 ∧ (t.portProfile 0).interlock = true ∧ ¬ MaskTooHigh t 8) ∧
    (∃ s t, Taken s t 0 ⟨7, .clm 8 1 2⟩ ∧ Attached t 0 ∧ (t.portProfile 0).interlock = true ∧ ¬ MaskTooHigh t 8) ∧
    (∃ s t, Taken s t 0 ⟨7, .clm 15 0 1⟩ ∧ Attached t 0 ∧ (t.portProfile 0).interlock = true ∧ ¬ MaskTooHigh t 15 ∧
      (∀ n, names 3 n = true ↔ names 15 n = true ∧ t.token n ≠ .free ∧ t.token n ≠ .held 0) ∧
      ∀ n, names 0 n = true ↔ names 15 n = true ∧ t.token n = .free ∧ ((0 : Byte) = 1 ∨ (3 : Word) = 0)) ∧
    (∃ s t, Taken s t 0 ⟨7, .clm 15 1 1⟩ ∧ Attached t 0 ∧ (t.portProfile 0).interlock = true ∧ ¬ MaskTooHigh t 15 ∧
      (∀ n, names 3 n = true ↔ names 15 n = true ∧ t.token n ≠ .free ∧ t.token n ≠ .held 0) ∧
      ∀ n, names 12 n = true ↔ names 15 n = true ∧ t.token n = .free ∧ ((1 : Byte) = 1 ∨ (3 : Word) = 0)) :=
  ⟨meets labTokens (by decide +kernel), meets labTokens (by decide +kernel), meets labTokens (by decide +kernel),
    meets labTokens (by decide +kernel), meets labTokens (by decide +kernel), meets labTokens (by decide +kernel)⟩

theorem witness_DropFreesOwnTokens :
    (∃ s t, Taken s t 2 ⟨7, .drp 1⟩ ∧ Attached t 2 ∧ (t.portProfile 2).interlock = false) ∧
    (∃ s t, Taken s t 0 ⟨7, .drp 16⟩ ∧ Attached t 0 ∧ (t.portProfile 0).interlock = true ∧ MaskTooHigh t 16) ∧
    (∃ s t, Taken s t 0 ⟨7, .drp 15⟩ ∧ Attached t 0 ∧ (t.portProfile 0).interlock = true ∧ ¬ MaskTooHigh t 15 ∧
      ∀ n, names 2 n = true ↔ names 15 n = true ∧ (t.token n = .held 0 ∨ t.token n = .audit 0)) :=
  ⟨meets labTokens (by decide +kernel), meets labTokens (by decide +kernel), meets labTokens (by decide +kernel)⟩

theorem witness_ConfirmMakesTokensHeld :
    (∃ s t, Taken s t 2 ⟨7, .cnt 1⟩ ∧ Attached t 2 ∧ (t.portProfile 2).interlock = false) ∧
    (∃ s t, Taken s t 0 ⟨7, .cnt 16⟩ ∧ Attached t 0 ∧ (t.portProfile 0).interlock = true ∧ MaskTooHigh t 16) ∧
    (∃ s t, Taken s t 0 ⟨7, .cnt 15⟩ ∧ Attached t 0 ∧ (t.portProfile 0).interlock = true ∧ ¬ MaskTooHigh t 15 ∧
      ∀ n, names 2 n = true ↔ names 15 n = true ∧ t.token n = .audit 0) :=
  ⟨meets labTokens (by decide +kernel), meets labTokens (by decide +kernel), meets labTokens (by decide +kernel)⟩

theorem witness_UnwatchRemovesTokens :
    (∃ s t, Taken s t 2 ⟨7, .uwt 1⟩ ∧ Attached t 2 ∧ (t.portProfile 2).interlock = false) ∧
    (∃ s t, Taken s t 0 ⟨7, .uwt 16⟩ ∧ Attached t 0 ∧ (t.portProfile 0).interlock = true ∧ MaskTooHigh t 16) ∧
    (∃ s t, Taken s t 0 ⟨7, .uwt 15⟩ ∧ Attached t 0 ∧ (t.portProfile 0).interlock = true ∧ ¬ MaskTooHigh t 15 ∧
      t.watch 0 = 1) ∧ (1 : Word) &&& ~~~15 = 0 :=
  ⟨meets labTokens (by decide +kernel), meets labTokens (by decide +kernel), meets (labTokens.setWatch 0 1) (by decide +kernel),
    by decide⟩

/-- The small part with pool 0 DERATED and holding 40 of its 60 units. -/
def labDerated : State := labHeld.modPool 0 fun q => { q with derateState := .derated }

theorem witness_CapacityChangeRecordsBothFigures :
    (∃ s t, Taken s t 1 ⟨7, .scp 0 1 1⟩ ∧ Attached t 1 ∧ (t.portProfile 1).supervise = false) ∧
    (∃ s t, Taken s t 0 ⟨7, .scp 0 1 1⟩ ∧ Attached t 0 ∧ (t.portProfile 0).supervise = true ∧ t.profile.locked = true) ∧
    (∃ s t, Taken s t 0 ⟨7, .scp 8 1 1⟩ ∧ Attached t 0 ∧ (t.portProfile 0).supervise = true ∧ t.profile.locked = false ∧
      ∀ n : PoolNo, n.val = (8 : Byte).toNat → (t.pool n).defined = false) ∧
    (∃ s t, Taken s t 0 ⟨7, .scp 0 1 2⟩ ∧ Attached t 0 ∧ (t.portProfile 0).supervise = true ∧ t.profile.locked = false ∧
      (t.pool 0).defined = true) ∧
    (∃ s t, Taken s t 0 ⟨7, .scp 0 100 100⟩ ∧ Attached t 0 ∧ (t.portProfile 0).supervise = true ∧
      t.profile.locked = false ∧ (t.pool 0).effective = 100 ∧ (t.pool 0).derateState = .normal) ∧
    (∃ s t, Taken s t 0 ⟨7, .scp 0 101 100⟩ ∧ Attached t 0 ∧ (t.portProfile 0).supervise = true ∧
      t.profile.locked = false ∧ (t.pool 0).effective < 101 ∧ (t.pool 0).derateState = .normal) ∧
    (∃ s t, Taken s t 0 ⟨7, .scp 0 99 39⟩ ∧ Attached t 0 ∧ (t.portProfile 0).supervise = true ∧
      t.profile.locked = false ∧ (t.pool 0).defined = true ∧ 39 < (t.pool 0).effective ∧
      (t.pool 0).derateState = .derated ∧ AgeLaw t ∧ FamilyLaw t ∧ ChargeLaw t) :=
  ⟨meets lab (by decide +kernel), meets { lab with profile := { labProfile with locked := true } } (by decide +kernel),
    meets lab (by decide +kernel), meets lab (by decide +kernel), meets lab (by decide +kernel),
    meets lab (by decide +kernel), meets labDerated (by unfold AgeLaw FamilyLaw ChargeLaw; decide +kernel)⟩

theorem witness_RequestResetEntersReset :
    (∃ s t, Taken s t 1 ⟨7, .rsr⟩ ∧ Attached t 1 ∧ (t.portProfile 1).supervise = false) ∧
    (∃ s t, Taken s t 0 ⟨7, .rsr⟩ ∧ Attached t 0 ∧ (t.portProfile 0).supervise = true) :=
  ⟨meets lab (by decide +kernel), meets lab (by decide +kernel)⟩

/-- A port record at an offset: priority 0, no right, leases of 20 to 60000 ms, the quotas unprogrammed. -/
def labImagePort (i : Nat) : Memory :=
  [(i, 0x00), (i + 1, 0x00), (i + 2, 0x00), (i + 3, 0x14), (i + 4, 0xEA), (i + 5, 0x60)]

/-- An image that passes validation, with no pool defined. -/
def labImage : Memory :=
  [(0, 0x00), (1, 0x01), (2, 0x1F), (3, 0x40), (4, 0x00), (12, 0x00), (20, 0x00), (28, 0x00), (36, 0x00), (44, 0x00),
    (52, 0x00), (60, 0x00)] ++ labImagePort 68 ++ labImagePort 90 ++ labImagePort 112 ++ labImagePort 134 ++
  [(156, 0x10), (157, 0x00), (158, 0x01), (159, 0x00), (160, 0x0A), (161, 0x03), (162, 0xE8), (163, 0xEA), (164, 0x60),
    (165, 0x00), (166, 0x64), (167, 0x00)]

/-- That image has no fault of R149's table. -/
theorem labImage_no_fault (code offset : Nat) : ¬ ImageFault labImage code offset := by
  have pools : ∀ n : PoolNo, labImage.read (4 + 8 * n.val) = 0x00 := by decide +kernel
  have ports : ∀ p : Port, (labImage.read (68 + 22 * p.val)).toNat ≤ 3 ∧ labImage.read (69 + 22 * p.val) &&& 0xF8 = 0 ∧
      20 ≤ imageWord labImage (70 + 22 * p.val) ∧ imageWord labImage (72 + 22 * p.val) ≤ 60000 ∧
      imageWord labImage (70 + 22 * p.val) ≤ imageWord labImage (72 + 22 * p.val) := by decide +kernel
  have rest : ∀ a : Fin 253, 184 ≤ a.val → labImage.read a.val = 0xFF := by decide +kernel
  have one : imageWord labImage 0 ≠ 0 ∧ 4000 ≤ imageWord labImage 2 ∧ imageWord labImage 2 ≤ 16000 ∧
      (labImage.read 156).toNat ≤ 16 ∧ 1 ≤ imageWord labImage 157 ∧ imageWord labImage 157 ≤ 1000 ∧
      1 ≤ imageWord labImage 161 ∧ imageWord labImage 161 ≤ 1000 ∧ 10 ≤ imageWord labImage 159 ∧
      imageWord labImage 159 ≤ 60000 ∧ 10 ≤ imageWord labImage 163 ∧ imageWord labImage 163 ≤ 60000 ∧
      100 ≤ imageWord labImage 165 ∧ imageWord labImage 165 ≤ 10000 ∧ labImage.read 167 = 0x00 := by decide +kernel
  rintro (h | h | ⟨n, h⟩ | ⟨p, h⟩ | h | ⟨_, rfl | rfl, h⟩ | ⟨_, rfl | rfl, h⟩ | h | h | ⟨_, h1, h2, h3⟩)
  · exact one.1 h.2.2
  · omega
  · rcases h with h | h
    · exact h.2.2.1 (pools n)
    · exact absurd ((pools n).symm.trans h.1) (by decide)
  · have := ports p
    rcases h with h | h | h | h | h
    · omega
    · exact h.2.2 this.2.1
    · omega
    · omega
    · omega
  · omega
  · omega
  · omega
  · omega
  · omega
  · omega
  · exact h.2.2.1 one.2.2.2.2.2.2.2.2.2.2.2.2.2.2
  · exact h3 (rest ⟨offset, h2⟩ h1)

/-- The first fault of a buffer that nothing was staged into is the clock's. -/
theorem empty_first_fault : FirstFault [] 0x02 2 := by
  refine ⟨.inr (.inl (by decide +kernel)), fun c o h => ?_⟩
  rcases h with h | h | ⟨n, h⟩ | ⟨p, h⟩ | h | ⟨_, h, _⟩ | ⟨_, h, _⟩ | h | h | ⟨_, h, _⟩
  · exact absurd h.2.2 (by decide +kernel)
  · omega
  · rcases h with h | ⟨_, h⟩
    · omega
    · rcases h with h | h | ⟨r, _, h⟩ | h | h | h <;> omega
  · rcases h with h | h | h | h | h <;> omega
  · omega
  · omega
  · omega
  · omega
  · omega
  · omega

/-- That image with pool 6 defined as a root and pool 7 as its branch, of group B, policy FIT, 258 of 513 units derated. -/
def labPoolImage : Memory :=
  (labImage.writeAll 52 [0x01]).writeAll 58 [0x00, 0x00, 0x01, 0x06, 0x02, 0x01, 0x01, 0x02, 0x02, 0x01]

theorem witness_ValidImagesLoadLawfulProfiles :
    validate labImage = none ∧ FirstFault [] (0x02 : Byte).toNat 2 ∧ validate labPoolImage = none ∧
      labPoolImage.read (4 + 8 * 7) = 0x01 ∧ labPoolImage.read (4 + 8 * 5) = 0x00 :=
  ⟨by decide +kernel, empty_first_fault, by decide +kernel, by decide +kernel, by decide +kernel⟩

/-- What that image loads of pools 6 and 7 (R146, R147). -/
theorem test_load_pools :
    (loadProfile labPoolImage).pools[6] = ⟨true, none, 65535, 65535, none, .ordered⟩ ∧
    (loadProfile labPoolImage).pools[7] = ⟨true, some 6, 513, 258, some .b, .fit⟩ := by decide +kernel

/-- What is staged in the state a request is taken in. -/
theorem meetsStaged (s : State) {p : Port} {r : Request} {h k : State → Prop}
    (hs : (asked s p r).ready.takes p r = true ∧ k ((asked s p r).ready.took p)) (hk : ∀ t, k t → h t) :
    ∃ s t, Taken s t p r ∧ h t := ⟨_, _, ⟨hs.1, rfl⟩, hk _ hs.2⟩

theorem witness_StoreCommandsReadAndStage :
    (∃ s t, Taken s t 1 ⟨7, .srd 0 0⟩ ∧ Attached t 1) ∧ (∃ s t, Taken s t 1 ⟨7, .stg 0 (List.replicate 16 0)⟩ ∧ Attached t 1) ∧
    (∃ s t, Taken s t 1 ⟨7, .chk⟩ ∧ Attached t 1) ∧ (∃ s t, Taken s t 1 ⟨7, .sel⟩ ∧ Attached t 1) ∧
    (∃ s t, Taken s t 0 ⟨7, .srd 4 15⟩ ∧ t.commissioning = true) ∧
    (∃ s t, Taken s t 0 ⟨7, .srd 3 16⟩ ∧ t.commissioning = true) ∧
    (∃ s t, Taken s t 0 ⟨7, .srd 3 15⟩ ∧ t.commissioning = true) ∧
    (∃ s t, Taken s t 0 ⟨7, .stg 16 (List.replicate 16 0)⟩ ∧ t.commissioning = true) ∧
    (∃ s t, Taken s t 0 ⟨7, .stg 15 (List.replicate 16 0)⟩ ∧ t.commissioning = true ∧ MemoryLaw t) ∧
    (∃ s t, Taken s t 0 ⟨7, .chk⟩ ∧ t.commissioning = true ∧ ∀ code offset, ¬ ImageFault t.staging code offset) ∧
    (∃ s t, Taken s t 0 ⟨7, .chk⟩ ∧ t.commissioning = true ∧ FirstFault t.staging 0x02 2) :=
  ⟨meets lab (by decide +kernel), meets lab (by decide +kernel), meets lab (by decide +kernel), meets lab (by decide +kernel),
    meets labStore (by decide +kernel), meets labStore (by decide +kernel), meets labStore (by decide +kernel),
    meets labStore (by decide +kernel), meets labStore (by unfold MemoryLaw; decide +kernel),
    meetsStaged { labStore with staging := labImage } (k := fun t => t.commissioning = true ∧ t.staging = labImage)
      (by decide +kernel) (fun _ h => ⟨h.1, h.2 ▸ labImage_no_fault⟩),
    meetsStaged labStore (k := fun t => t.commissioning = true ∧ t.staging = []) (by decide +kernel)
      (fun _ h => ⟨h.1, h.2 ▸ empty_first_fault⟩)⟩

theorem witness_SealBeginsInLowestBlankSlot :
    (∃ s t, Taken s t 0 ⟨7, .sel⟩ ∧ t.commissioning = true ∧ FirstFault t.staging 0x02 2) ∧
    (∃ s t, Taken s t 0 ⟨7, .sel⟩ ∧ t.commissioning = true ∧ (∀ code offset, ¬ ImageFault t.staging code offset) ∧
      ∀ i, (t.imageSlot i).state ≠ .blank) ∧
    (∃ s t, Taken s t 0 ⟨7, .sel⟩ ∧ t.commissioning = true ∧ (∀ code offset, ¬ ImageFault t.staging code offset) ∧
      (t.imageSlot 3).state = .blank ∧ ∀ j : SlotNo, j < 3 → (t.imageSlot j).state ≠ .blank) :=
  ⟨meetsStaged labStore (k := fun t => t.commissioning = true ∧ t.staging = []) (by decide +kernel)
      (fun _ h => ⟨h.1, h.2 ▸ empty_first_fault⟩),
    meetsStaged { labStore with staging := labImage, slots := Vector.replicate 4 ⟨[(0, 0)], .damaged⟩ }
      (k := fun t => t.staging = labImage ∧ t.commissioning = true ∧ ∀ i, (t.imageSlot i).state ≠ .blank)
      (by decide +kernel) (fun _ h => ⟨h.2.1, h.1 ▸ labImage_no_fault, h.2.2⟩),
    meetsStaged (({ labStore with staging := labImage, slots := Vector.replicate 4 ⟨[(0, 0)], .damaged⟩ } : State).setImageSlot
      3 ⟨[], .blank⟩)
      (k := fun t => t.staging = labImage ∧ t.commissioning = true ∧ (t.imageSlot 3).state = .blank ∧
        ∀ j : SlotNo, j < 3 → (t.imageSlot j).state ≠ .blank)
      (by decide +kernel) (fun _ h => ⟨h.2.1, h.1 ▸ labImage_no_fault, h.2.2⟩)⟩

/-- The lab's part in commissioning state, sealing that image into slot 3. -/
def labSealing : State :=
  { (labStore.modPort 0 fun c => { c with processing := some ⟨7, .sel⟩ }) with sealing := some ⟨3, labImage⟩ }

theorem witness_SealEndsSealedOrDamaged :
    let s := labSealing
    (s.phase = .running ∧ s.sealing = some ⟨3, labImage⟩ ∧ (s.port 0).processing.isSome ∧ MemoryLaw s ∧ labImage.wf) ∧
      ((∀ code offset, ¬ ImageFault labImage code offset) ∧ (s.imageSlot 3).contents.isBlank) ∧
      (State.readsBack labImage (s.imageSlot 3).contents 256 = true ∧ (0xFF &&& 0x00 : Byte) ≠ sealByte labImage 255 ∧
        (0xFF &&& 0xFF : Byte) ≠ sealByte labImage 0 ∧ ∀ c ∈ ([(255, 0x00), (0, 0xFF)] : List (Nat × Byte)), c.1 < 256) ∧
      State.readsBack labImage ((s.disturb ⟨3, 2, 0x00⟩).imageSlot 3).contents 3 = false ∧
      (0xFF &&& 0x5A : Byte) = sealByte labImage 255 :=
  ⟨⟨rfl, rfl, rfl, by unfold MemoryLaw; decide +kernel, by decide +kernel⟩, ⟨labImage_no_fault, by decide +kernel⟩,
    ⟨Memory.readsBack_of_isBlank (by decide +kernel) 256, by decide +kernel, by decide +kernel, by decide +kernel⟩,
    by decide +kernel, by decide +kernel⟩

/-- The image slot 3 and the status of the reply on P0 after a command, where it goes on. -/
def slotAfter (c : Instr) (s : State) : Option (ImageSlot × Option Status) :=
  match exec c s with
  | .next t => some (t.imageSlot 3, (t.port 0).reply.map (·.status))
  | .fault _ => none
  | .refused _ => none

/-- Turned bits stay turned: the value 0xFF given for a programmed byte does not restore it (R144). -/
theorem test_program_all :
    Memory.programAll [(0, 0x0F), (1, 0x10)] [(0, 0xFF), (1, 0xEF), (2, 0x7F)] = [(0, 0x0F), (1, 0x00), (2, 0x7F)] := by
  decide +kernel

/-- A seal read back wrong at its third byte leaves the slot DAMAGED, no later byte touched; a SEALED kept state disturbed on a
tick stays for SRD, and its slot, whose mark is gone, is DAMAGED at the next warm start (R145, R157, log entry 25). -/
theorem test_damaged_slots :
    (slotAfter (.sealEnd (.readBackDiffers 2 0x3F)) labSealing =
        some (⟨[(0, 0x00), (1, 0x01), (2, 0x3F)], .damaged⟩, some .sealFailed)) ∧
    (slotAfter (.tick ⟨.low, .low⟩ [⟨3, 253, 0xEF⟩]) (lab.setImageSlot 3 ⟨[(0, 0x00), (253, 0x5A)], .sealed⟩) =
        some (⟨[(0, 0x00), (253, 0x4A)], .sealed⟩, none)) ∧
    slotAfter (.warmStart false)
        (({ lab with phase := .warmStarting } : State).setImageSlot 3 ⟨[(0, 0x00), (253, 0x4A)], .sealed⟩) =
      some (⟨[(0, 0x00), (253, 0x4A)], .damaged⟩, none) := by decide +kernel

/-- A seal cut after its first write, of 0x00 over a byte that a tick had cleared, leaves the slot DAMAGED; one cut before any
bit was written leaves it BLANK (R157, R158). -/
theorem test_cut_seals :
    let s := { labSealing.disturb ⟨3, 0, 0x00⟩ with phase := .resetTaking }
    (slotAfter (.warmReset ⟨1, 0xFF⟩) s).map (·.1) = some ⟨[(0, 0x00)], .damaged⟩ ∧
    (slotAfter (.warmReset ⟨0, 0xFF⟩) s).map (·.1) = some ⟨[(0, 0x00)], .blank⟩ := by decide +kernel

/-- The first writes of a seal program the image's bytes, its last the seal mark in byte 253 (R157). -/
theorem test_seal :
    sealWrites labImage 3 [] = [(0, 0x00), (1, 0x01), (2, 0x1F)] ∧ sealAddress 255 = 253 ∧ sealByte labImage 255 = 0x5A := by
  decide +kernel

theorem witness_TickLowersEveryCounter :
    (lab.phase = .running ∧ labAudit.settle.window.isOpen = true ∧ labAudit.settle.window.remaining = 1) ∧
    ((lab.modPort 3 fun c => { c with lease := some 1 }).settle.port 3).lease = some 1 ∧
    (labWaiting.settle.record? 0).any (fun r => r.deadline == some 1) = true ∧
    (State.reset.profile.version = 0 ∧ State.reset.phase = .running) ∧
    MemoryLaw (lab.setImageSlot 0 ⟨[(255, 0x00)], .damaged⟩) := by unfold MemoryLaw; decide +kernel

theorem witness_TickSamplesEachLine :
    (lab.phase = .running ∧ lab.profile.version ≠ 0 ∧ (lab.settle.line .a).sampled = false ∧
      ¬ ∃ n, (lab.settle.pool n).defined = true ∧ (lab.settle.pool n).group = some .a ∧
        (lab.settle.pool n).derateState = .derated) ∧
    (labDerated.settle.line .a).sampled = false ∧
    (∃ n, (labDerated.settle.pool n).defined = true ∧ (labDerated.settle.pool n).group = some .a ∧
      (labDerated.settle.pool n).derateState = .derated) ∧
    (lab.setLine .b ⟨.restoring, .low, true, some 1⟩).settle.line .b = ⟨.restoring, .low, true, some 1⟩ := by
  decide +kernel

theorem witness_ExpiriesMakeTheirEvents :
    let s := { lab with due := [.lease 3, .deadline 32, .audit] }
    s.phase = .running ∧ Due.lease 3 ∈ s.due ∧ Due.deadline (32 : Word).toNat ∈ s.due ∧ Due.audit ∈ s.due ∧
      lab.due = [] := by decide +kernel

theorem witness_LinesMoveAsTheTableGives :
    let s := fun (d : Due) (x : LineState) => ({ lab with due := [d] } : State).setLine .a ⟨x, .low, true, some 0⟩
    (∀ d x, (s d x).phase = .running ∧ d ∈ (s d x).due ∧ ((s d x).line .a).state = x) :=
  fun _ _ => ⟨rfl, List.mem_singleton.2 rfl, rfl⟩

theorem witness_DerateLeavesGroupWithinCapacity :
    ∃ s t, Free s t ∧ t.sagEvents.find? (fun e => State.eventGroup e == .a) = some (.derate .a) ∧ AgeLaw t ∧ FamilyLaw t ∧
      ChargeLaw t ∧ (t.pool 0).derated < (t.pool 0).charged :=
  meetsFree { labHeld.createGrant 1 (labGrant .active 1 40 10) with sagEvents := [.restore .b, .derate .a] }
    (by unfold AgeLaw FamilyLaw ChargeLaw; decide +kernel)

theorem witness_RestoreReturnsGroupToNominal :
    ∃ s t, Free s t ∧ t.sagEvents.find? (fun e => State.eventGroup e == .a) = some (.restore .a) ∧
      (t.pool 0).derateState = .derated :=
  meetsFree { labDerated with sagEvents := [.restore .a] } (by decide +kernel)

theorem witness_AuditEndReclaimsAuditHoldings :
    (∃ s t, Free s t ∧ t.auditEndMade = true ∧ t.window.isOpen = false) ∧
    ∃ s t, Free s t ∧ t.auditEndMade = true ∧ t.window.isOpen = true ∧ AgeLaw t ∧ t.anyAudit = true :=
  ⟨meetsFree { lab with auditEndMade := true } (by decide +kernel),
    meetsFree { labAudit with auditEndMade := true } (by unfold AgeLaw; decide +kernel)⟩

theorem witness_AvailableRoomOfRootAndBranch :
    (lab.pool 0).parent = none ∧ (lab.pool 1).parent = some 0 ∧ (lab.pool 2).parent ≠ some 1 ∧
    ((lab.modPool 0 fun q => { q with charged := 101 }).pool 0).effective <
      ((lab.modPool 0 fun q => { q with charged := 101 }).pool 0).charged := by decide +kernel

/-- Pool 0 holds 40 of its 100 units, so its queue's record, of floor 70, must wait, in an ORDERED pool and in a FIT one. -/
theorem witness_ServicePassGrantsWithinRoom :
    ((lab.queueRecord 0 (labRecord 1)).record? 0 = some (labRecord 1) ∧
      (lab.queueRecord 0 (labRecord 1)).quota 1 0 - (lab.queueRecord 0 (labRecord 1)).held 1 0 < 90) ∧
    (let f := labFull.queueRecord 0 { labRecord 1 with port := 3, floor := 70 };
      70 ≤ f.quota 3 0 - f.held 3 0 ∧ ∀ i, (f.grant? i).isSome = true) ∧
    (let l := lab.queueRecord 0 { labRecord 1 with port := 3, floor := 80 };
      80 ≤ l.quota 3 0 - l.held 3 0 ∧ l.grant? 0 = none ∧
        80 ≤ min 95 (min (l.available 0) (l.quota 3 0 - l.held 3 0)) ∧ (l.pool 0).parent ≠ some 0) ∧
    let o := labHeld.queueRecord 0 { labRecord 1 with port := 3, floor := 70 }
    let s := (labHeld.modPool 0 fun q => { q with policy := .fit }).queueRecord 0 { labRecord 1 with port := 3, floor := 70 }
    (FamilyLaw o ∧ QuotaLaw o ∧ (o.pool 0).policy = .ordered ∧ (o.pool 0).queue.head? = some 0 ∧
      70 ≤ o.quota 3 0 - o.held 3 0 ∧ (∃ i, o.grant? i = none) ∧
      min 95 (min (o.available 0) (o.quota 3 0 - o.held 3 0)) < 70) ∧
    FamilyLaw s ∧ QuotaLaw s ∧ (s.pool 0).charged ≤ (s.pool 0).effective ∧ (s.pool 0).policy = .fit ∧
      (s.pool 0).queue = [0] ∧ 70 ≤ s.quota 3 0 - s.held 3 0 ∧ (∃ i, s.grant? i = none) ∧
      min 95 (min (s.available 0) (s.quota 3 0 - s.held 3 0)) < 70 := by
  unfold FamilyLaw QuotaLaw; decide +kernel

theorem witness_PinsAndPowerMoveThePhase :
    State.reset.rstn = .high ∧ State.reset.phase = .running ∧ MemoryLaw State.reset ∧
    (∃ s : State, s.rstn = .low ∧ s.phase = .inReset) ∧ (∃ s : State, s.phase = .off) ∧
    ∃ s : State, s.phase ≠ .off ∧ s.sealing = some ⟨0, labImage⟩ ∧ MemoryLaw s :=
  ⟨rfl, rfl, by unfold MemoryLaw; decide +kernel, ⟨{ State.reset with rstn := .low, phase := .inReset }, rfl, rfl⟩,
    ⟨{ State.reset with phase := .off }, rfl⟩,
    ⟨{ labStore with sealing := some ⟨0, labImage⟩ }, by decide, rfl, by unfold MemoryLaw; decide +kernel⟩⟩

theorem witness_WarmResetDiscardsUntakenWork :
    let s := { labAudit with phase := .resetTaking, sealing := some ⟨0, labImage⟩ }
    s.phase = .resetTaking ∧ MemoryLaw s ∧ s.rstn = .high := by unfold MemoryLaw; decide +kernel

theorem witness_WarmStartTurnsHoldingsToAudit :
    let s := { labHeld with phase := .warmStarting }
    s.phase = .warmStarting ∧ s.signature = .matching := by decide +kernel

/-- The warm start of the small part with one ACTIVE grant leaves P1 RECOVERING with the window open. -/
theorem test_warm_start :
    (match exec (.warmStart false) { labHeld with phase := .warmStarting } with
      | .next s => (s.session 1).state == .recovering && s.window == ⟨true, 100⟩ && s.restartCount == 1
      | .fault _ => false
      | .refused _ => false) = true := by
  decide +kernel

theorem witness_ColdAndLostStartsClearTables :
    (∃ s : State, s.phase = .coldStarting) ∧
    (∃ s : State, s.phase = .warmStarting ∧ s.signature = .differing ∧ s.commissioning = false) ∧
    (∃ (s : State) (disturbed : Bool), s.phase = .warmStarting ∧ s.signature = .matching ∧ disturbed = true ∧
      s.commissioning = false) ∧
    ∃ (s : State) (disturbed : Bool), s.phase = .warmStarting ∧ disturbed = true ∧ s.commissioning = true :=
  ⟨⟨{ lab with phase := .coldStarting }, rfl⟩, ⟨{ lab with phase := .warmStarting, signature := .differing }, rfl, rfl, rfl⟩,
    ⟨{ lab with phase := .warmStarting }, true, rfl, rfl, rfl, rfl⟩,
    ⟨{ labStore with phase := .warmStarting }, true, rfl, rfl, rfl⟩⟩

/-- A step that the laws are kept over: a tick of the part `s` that disturbs slot 3. -/
def ticked (s : State) : State := { s with pending := [.tick ⟨.low, .high⟩ [⟨3, 0, 0xFE⟩]] }

theorem witness_EveryStepKeepsStoreNoticeAndWatchLaws :
    ∃ s t, step s = .next t ∧ MemoryLaw s ∧ NoticeLaw s ∧ WatchLaw s :=
  ⟨ticked (labTokens.setWatch 0 1), _, rfl, by unfold MemoryLaw NoticeLaw WatchLaw; decide +kernel⟩

theorem witness_EveryStepKeepsTableLaws :
    ∃ s t, step s = .next t ∧ GrantLaw s ∧ AgeLaw s ∧ WaitLaw s ∧ QueueLaw s ∧ WaitLimitLaw s :=
  ⟨ticked (labHeld.queueRecord 0 (labRecord 1)), _, rfl, by
    unfold GrantLaw AgeLaw WaitLaw QueueLaw WaitLimitLaw; decide +kernel⟩

theorem witness_EveryStepKeepsChargedSums : ∃ s t, step s = .next t ∧ FamilyLaw s ∧ ChargeLaw s :=
  ⟨ticked labHeld, _, rfl, by unfold FamilyLaw ChargeLaw; decide +kernel⟩

theorem witness_EveryStepKeepsCapacityAndQuota :
    ∃ s t, step s = .next t ∧ FamilyLaw s ∧ ChargeLaw s ∧ AgeLaw s ∧ DerateLaw s ∧ QuotaLaw s :=
  ⟨ticked labDerated, _, rfl, by unfold FamilyLaw ChargeLaw AgeLaw DerateLaw QuotaLaw; decide +kernel⟩

theorem witness_EveryStepKeepsSessionAndWindowLaws :
    ∃ s t, step s = .next t ∧ AgeLaw s ∧ SessionLaw s ∧ WindowLaw s :=
  ⟨ticked labAudit, _, rfl, by unfold AgeLaw SessionLaw WindowLaw; decide +kernel⟩

theorem witness_EveryStepKeepsCommissioningLaw :
    ∃ s t, step s = .next t ∧ CommissioningLaw s ∧ s.commissioning = true :=
  ⟨ticked labStore, _, rfl, by unfold CommissioningLaw; decide +kernel⟩

end Sys2Proof.Tests
end

section
/-! Proofs, part 1: the units that a rule sums over the grant table (R5, R8), and what each operation of the grant table
does to such a sum. -/

namespace Sys2Proof.Machine

/-- The grant a slot may hold, its state forgotten: no sum of units looks at it. -/
def Grant.asActive (g : Grant) : Grant := { g with state := .active }

/-- What a slot adds to a sum of units over the grants whose port and pool `c` picks out. -/
def slotUnits (c : Port → PoolNo → Bool) (o : Option Grant) : Nat := o.elim 0 fun g => if c g.port g.pool then g.units else 0

/-- The units of the live grants whose port and pool `c` picks out. -/
def unitsWhere (s : State) (c : Port → PoolNo → Bool) : Nat := ∑ i : GrantNo, slotUnits c (s.grant? i)

theorem sum_units_filterMap (c : Port → PoolNo → Bool) (f : GrantNo → Option Grant) (l : List GrantNo) :
    (((l.filterMap f).filter fun g => c g.port g.pool).map Grant.units).sum = (l.map fun i => slotUnits c (f i)).sum := by
  induction l with
  | nil => rfl
  | cons i rest ih =>
    cases hf : f i with
    | none => simpa [slotUnits, hf] using ih
    | some g => by_cases hc : c g.port g.pool <;> simp [slotUnits, hf, hc, ih]

theorem sum_liveGrants (s : State) (c : Port → PoolNo → Bool) :
    ((s.liveGrants.filter fun g => c g.port g.pool).map Grant.units).sum = unitsWhere s c :=
  (sum_units_filterMap c s.grant? (List.finRange 64)).trans (Fin.sum_univ_def _).symm

/-- Whether a grant of pool `m` is charged to pool `n` (R5). -/
def chargesPool (s : State) (n m : PoolNo) : Bool := m == n || (s.pool m).parent == some n

theorem chargesPool_iff {s : State} {n m : PoolNo} : chargesPool s n m = true ↔ n = m ∨ (s.pool m).parent = some n := by
  rw [chargesPool, Bool.or_eq_true, beq_iff_eq, beq_iff_eq, eq_comm]

theorem chargedUnits_eq (s : State) (n : PoolNo) : chargedUnits s n = unitsWhere s fun _ m => chargesPool s n m :=
  sum_liveGrants s fun _ m => chargesPool s n m

theorem held_eq (s : State) (p : Port) (n : PoolNo) : s.held p n = unitsWhere s fun q m => q == p && m == n :=
  sum_liveGrants s fun q m => q == p && m == n

/-- When one slot changes from `before` to `after`, a sum of units changes by what that slot adds. -/
theorem unitsWhere_slot {s t : State} {i : GrantNo} {before after : Option Grant} (hs : s.grant? i = before)
    (ht : ∀ j, t.grant? j = if j = i then after else s.grant? j) (c : Port → PoolNo → Bool) :
    unitsWhere t c + slotUnits c before = unitsWhere s c + slotUnits c after := by
  have rest : ∑ j ∈ Finset.univ.erase i, slotUnits c (t.grant? j) = ∑ j ∈ Finset.univ.erase i, slotUnits c (s.grant? j) :=
    Finset.sum_congr rfl fun j hj => by rw [ht j, if_neg (Finset.ne_of_mem_erase hj)]
  have sumS := Finset.add_sum_erase Finset.univ (fun j => slotUnits c (s.grant? j)) (Finset.mem_univ i)
  have sumT := Finset.add_sum_erase Finset.univ (fun j => slotUnits c (t.grant? j)) (Finset.mem_univ i)
  have hi : t.grant? i = after := (ht i).trans (if_pos rfl)
  simp only [hs, hi] at sumS sumT
  unfold unitsWhere
  omega

theorem slotUnits_none (c : Port → PoolNo → Bool) : slotUnits c none = 0 := rfl

theorem slotUnits_some (c : Port → PoolNo → Bool) (g : Grant) :
    slotUnits c (some g) = if c g.port g.pool then g.units else 0 := rfl

/-- A sum of units does not look at the states of the grants. -/
theorem unitsWhere_congr {s t : State} (h : ∀ i, (t.grant? i).map Grant.asActive = (s.grant? i).map Grant.asActive)
    (c : Port → PoolNo → Bool) : unitsWhere t c = unitsWhere s c := by
  have forget : ∀ o : Option Grant, slotUnits c (o.map Grant.asActive) = slotUnits c o := by
    intro o; cases o <;> rfl
  unfold unitsWhere
  exact Finset.sum_congr rfl fun i _ => by rw [← forget (t.grant? i), h i, forget]

theorem unitsWhere_eq_zero {s : State} {c : Port → PoolNo → Bool}
    (h : ∀ i, ∀ g ∈ s.grant? i, c g.port g.pool = false) : unitsWhere s c = 0 := by
  refine Finset.sum_eq_zero fun i _ => ?_
  cases hg : s.grant? i with
  | none => rfl
  | some g => simp [slotUnits, h i g hg]

namespace State

/-! ## What the operations do to one slot of the grant table -/

theorem grant?_createGrant (s : State) (i j : GrantNo) (g : Grant) :
    (s.createGrant i g).grant? j = if j = i then some g else s.grant? j := by
  rw [createGrant_frame]; exact grant?_putGrant s i j g

theorem grant?_growGrant (s : State) (i j : GrantNo) (g : Grant) (v : Nat) :
    (s.growGrant i g v).grant? j = if j = i then some { g with units := v } else s.grant? j := by
  rw [growGrant_frame]; exact grant?_putGrant s i j _

theorem grant?_shrinkGrant (s : State) (i j : GrantNo) (g : Grant) (v : Nat) :
    (s.shrinkGrant i g v).grant? j = if j = i then some { g with units := v, floor := min g.floor v } else s.grant? j := by
  rw [shrinkGrant_frame]; exact grant?_putGrant s i j _

/-! ## What they do to a sum of units -/

theorem unitsWhere_createGrant {s : State} {i : GrantNo} (hi : s.grant? i = none) (g : Grant)
    (c : Port → PoolNo → Bool) :
    unitsWhere (s.createGrant i g) c = unitsWhere s c + if c g.port g.pool then g.units else 0 := by
  have h := unitsWhere_slot hi (fun j => s.grant?_createGrant i j g) c
  rwa [slotUnits_none, slotUnits_some, Nat.add_zero] at h

theorem unitsWhere_growGrant {s : State} {i : GrantNo} {g : Grant} (hg : s.grant? i = some g) {v : Nat}
    (hv : g.units ≤ v) (c : Port → PoolNo → Bool) :
    unitsWhere (s.growGrant i g v) c = unitsWhere s c + if c g.port g.pool then v - g.units else 0 := by
  have h := unitsWhere_slot hg (fun j => s.grant?_growGrant i j g v) c
  rw [slotUnits_some, slotUnits_some] at h
  cases hc : c g.port g.pool
  · simpa [hc] using h
  · simp only [hc, if_true] at h ⊢; omega

theorem unitsWhere_shrinkGrant {s : State} {i : GrantNo} {g : Grant} (hg : s.grant? i = some g) {v : Nat}
    (hv : v ≤ g.units) (c : Port → PoolNo → Bool) :
    unitsWhere (s.shrinkGrant i g v) c + (if c g.port g.pool then g.units - v else 0) = unitsWhere s c := by
  have h := unitsWhere_slot hg (fun j => s.grant?_shrinkGrant i j g v) c
  rw [slotUnits_some, slotUnits_some] at h
  cases hc : c g.port g.pool
  · simpa [hc] using h
  · simp only [hc, if_true] at h ⊢; omega

theorem unitsWhere_freeGrant {s : State} {i : GrantNo} {g : Grant} (hg : s.grant? i = some g)
    (c : Port → PoolNo → Bool) :
    unitsWhere (s.freeGrant i) c + (if c g.port g.pool then g.units else 0) = unitsWhere s c := by
  have h := unitsWhere_slot hg (fun j => s.grant?_freeGrant i j) c
  rwa [slotUnits_none, slotUnits_some, Nat.add_zero] at h

/-! ## What they do to the pools of a lawful family structure -/

theorem parent_ne_self {s : State} (hf : FamilyLaw s) (n : PoolNo) : (s.pool n).parent ≠ some n := by
  intro h
  obtain ⟨_, _, _, hne⟩ := hf n n h
  exact hne rfl

/-- Charging raises the charged sum of every pool that a grant of pool `n` is charged to (R5). -/
theorem pool_addCharge_charges {s : State} (hf : FamilyLaw s) (n m : PoolNo) (k : Nat) :
    (s.addCharge n k).pool m =
      { s.pool m with charged := (s.pool m).charged + if chargesPool s m n then k else 0 } := by
  rw [pool_addCharge s n m k (parent_ne_self hf n)]
  simp only [chargesPool_iff]
  split <;> rfl

/-- Uncharging lowers the charged sum of every pool that a grant of pool `n` is charged to (R5). -/
theorem pool_subCharge_charges {s : State} (hf : FamilyLaw s) (n m : PoolNo) (k : Nat) :
    (s.subCharge n k).pool m =
      { s.pool m with charged := (s.pool m).charged - if chargesPool s m n then k else 0 } := by
  rw [pool_subCharge s n m k (parent_ne_self hf n)]
  simp only [chargesPool_iff]
  split <;> rfl

theorem pool_createGrant {s : State} (hf : FamilyLaw s) (i : GrantNo) (g : Grant) (m : PoolNo) :
    (s.createGrant i g).pool m = { s.pool m with
      charged := (s.pool m).charged + if chargesPool s m g.pool then g.units else 0 } :=
  pool_addCharge_charges (s := s.putGrant i g) hf g.pool m g.units

theorem pool_growGrant {s : State} (hf : FamilyLaw s) (i : GrantNo) (g : Grant) (v : Nat) (m : PoolNo) :
    (s.growGrant i g v).pool m = { s.pool m with
      charged := (s.pool m).charged + if chargesPool s m g.pool then v - g.units else 0 } :=
  pool_addCharge_charges (s := s.putGrant i { g with units := v }) hf g.pool m (v - g.units)

theorem pool_shrinkGrant {s : State} (hf : FamilyLaw s) (i : GrantNo) (g : Grant) (v : Nat) (m : PoolNo) :
    (s.shrinkGrant i g v).pool m = { s.pool m with
      charged := (s.pool m).charged - if chargesPool s m g.pool then g.units - v else 0 } :=
  pool_subCharge_charges (s := s.putGrant i { g with units := v, floor := min g.floor v }) hf g.pool m (g.units - v)

theorem pool_freeGrant {s : State} (hf : FamilyLaw s) {i : GrantNo} {g : Grant} (hg : s.grant? i = some g) (m : PoolNo) :
    (s.freeGrant i).pool m = { s.pool m with
      charged := (s.pool m).charged - if chargesPool s m g.pool then g.units else 0 } := by
  unfold freeGrant
  rw [hg]
  exact pool_subCharge_charges (s := s.setGrantSlot i _) hf g.pool m g.units

end State

end Sys2Proof.Machine
end

section
/-! Proofs, part 2: each operation of the grant table keeps the family structure (L6), the charged sums (L1), the age list
(R26), the quotas (L5) and the derated capacities (L2). -/

namespace Sys2Proof.Machine

/-! ## Room and quota room -/

theorem Pool.room_eq (q : Pool) : q.room = q.effective - q.charged := by
  unfold Pool.room Pool.overdrawn
  split
  · rename_i h; exact (Nat.sub_eq_zero_of_le (Nat.le_of_lt (of_decide_eq_true h))).symm
  · rfl

/-- What is available to a request in a pool is room of every pool it would be charged to (R5, R7). -/
theorem State.available_le_room {s : State} {n m : PoolNo} (h : chargesPool s m n = true) :
    s.available n ≤ (s.pool m).room := by
  unfold available
  rcases chargesPool_iff.1 h with rfl | hp
  · split
    · exact Nat.le_refl _
    · exact Nat.min_le_left _ _
  · rw [hp]; exact Nat.min_le_right _ _

/-- Units within the available room take no pool past its effective capacity (R7). -/
theorem State.charged_add_le {s : State} {n m : PoolNo} {k : Nat} (hk : k ≤ s.available n)
    (hm : (s.pool m).charged ≤ (s.pool m).effective) :
    (s.pool m).charged + (if chargesPool s m n then k else 0) ≤ (s.pool m).effective := by
  split
  · rename_i hc
    have hroom := available_le_room hc
    rw [Pool.room_eq] at hroom
    omega
  · exact hm

theorem chargesPool_congr {s t : State} (h : ∀ m, (t.pool m).parent = (s.pool m).parent) (n m : PoolNo) :
    chargesPool t n m = chargesPool s n m := by
  unfold chargesPool; rw [h m]

/-- The family structure looks at which pools are defined and at their parents alone (R3). -/
theorem FamilyLaw.congr {s t : State} (hf : FamilyLaw s) (hd : ∀ n, (t.pool n).defined = (s.pool n).defined)
    (hp : ∀ n, (t.pool n).parent = (s.pool n).parent) : FamilyLaw t := by
  intro n r hr
  rw [hp n] at hr
  rw [hd n, hd r, hp r]
  exact hf n r hr

/-- L1 as an equation of sums over the slots. -/
theorem chargeLaw_iff {s : State} :
    ChargeLaw s ↔ ∀ n, (s.pool n).charged = unitsWhere s fun _ m => chargesPool s n m := by
  simp only [ChargeLaw, chargedUnits_eq]

/-- L1 after a change that leaves every parent: the sums may be taken with the families of before. -/
theorem ChargeLaw.of_parents {s t : State} (hp : ∀ m, (t.pool m).parent = (s.pool m).parent)
    (h : ∀ n, (t.pool n).charged = unitsWhere t fun _ m => chargesPool s n m) : ChargeLaw t := by
  refine chargeLaw_iff.2 fun n => (h n).trans ?_
  simp only [chargesPool_congr hp]

/-! ## States that a sum of units, a charge or a quota cannot tell apart -/

/-- From `s` to `t` nothing moves that the laws of charging look at: of the pools nothing but their queues, of the grants
nothing but their states, and neither the age list nor the profile. -/
structure SameAccounts (s t : State) : Prop where
  pools : ∀ n, t.pool n = { s.pool n with queue := (t.pool n).queue }
  grants : ∀ i, (t.grant? i).map Grant.asActive = (s.grant? i).map Grant.asActive
  ageList : t.ageList = s.ageList
  profile : t.profile = s.profile

namespace SameAccounts

variable {s t u : State}

theorem refl (s : State) : SameAccounts s s := ⟨fun _ => rfl, fun _ => rfl, rfl, rfl⟩

theorem trans (h : SameAccounts s t) (k : SameAccounts t u) : SameAccounts s u :=
  ⟨fun n => by rw [k.pools n, h.pools n], fun i => (k.grants i).trans (h.grants i), k.ageList.trans h.ageList,
    k.profile.trans h.profile⟩

/-- A change that leaves the four tables alone. -/
theorem of_tables (hp : t.pools = s.pools) (hg : t.grants = s.grants) (ha : t.ageList = s.ageList)
    (hx : t.profile = s.profile) : SameAccounts s t :=
  ⟨fun n => by simp only [State.pool, hp], fun i => by simp only [State.grant?, State.grantSlot, hg], ha, hx⟩

/-- A list of changes, each of which leaves the accounts as they are. -/
theorem foldl {α : Type} {f : State → α → State} (hf : ∀ s x, SameAccounts s (f s x)) (l : List α) (s : State) :
    SameAccounts s (l.foldl f s) := by
  induction l generalizing s with
  | nil => exact refl s
  | cons x rest ih => exact (hf s x).trans (ih (f s x))

theorem parent (h : SameAccounts s t) (n : PoolNo) : (t.pool n).parent = (s.pool n).parent := by rw [h.pools n]

theorem isSome (h : SameAccounts s t) (i : GrantNo) : (t.grant? i).isSome = (s.grant? i).isSome := by
  rw [← Option.isSome_map (f := Grant.asActive), h.grants i, Option.isSome_map]

theorem family (h : SameAccounts s t) (hf : FamilyLaw s) : FamilyLaw t :=
  hf.congr (fun n => by rw [h.pools n]) h.parent

theorem charge (h : SameAccounts s t) (hc : ChargeLaw s) : ChargeLaw t :=
  .of_parents h.parent fun n => by rw [h.pools n, unitsWhere_congr h.grants]; exact chargeLaw_iff.1 hc n

theorem age (h : SameAccounts s t) (ha : AgeLaw s) : AgeLaw t := by
  rw [AgeLaw, h.ageList]
  exact ⟨ha.1, fun i => by rw [h.isSome i]; exact ha.2 i⟩

theorem quota_eq (h : SameAccounts s t) (p : Port) (n : PoolNo) : t.quota p n = s.quota p n := by
  rw [State.quota, State.portProfile, h.profile]; rfl

theorem quota (h : SameAccounts s t) (hq : QuotaLaw s) : QuotaLaw t := fun p n => by
  rw [held_eq, unitsWhere_congr h.grants, ← held_eq, h.quota_eq]; exact hq p n

theorem derate (h : SameAccounts s t) (hd : DerateLaw s) : DerateLaw t := fun n => by rw [h.pools n]; exact hd n

end SameAccounts

/-! ## What charging and uncharging keep -/

namespace State

variable {s : State} {i : GrantNo} {g : Grant} {v : Nat}

theorem family_createGrant (hf : FamilyLaw s) : FamilyLaw (s.createGrant i g) :=
  hf.congr (fun n => by rw [pool_createGrant hf]) fun n => by rw [pool_createGrant hf]

theorem family_growGrant (hf : FamilyLaw s) : FamilyLaw (s.growGrant i g v) :=
  hf.congr (fun n => by rw [pool_growGrant hf]) fun n => by rw [pool_growGrant hf]

theorem family_shrinkGrant (hf : FamilyLaw s) : FamilyLaw (s.shrinkGrant i g v) :=
  hf.congr (fun n => by rw [pool_shrinkGrant hf]) fun n => by rw [pool_shrinkGrant hf]

theorem family_freeGrant (hf : FamilyLaw s) (i : GrantNo) : FamilyLaw (s.freeGrant i) := by
  cases hg : s.grant? i with
  | none => rwa [freeGrant_free hg]
  | some g => exact hf.congr (fun n => by rw [pool_freeGrant hf hg]) fun n => by rw [pool_freeGrant hf hg]

theorem charge_createGrant (hf : FamilyLaw s) (hc : ChargeLaw s) (hi : s.grant? i = none) :
    ChargeLaw (s.createGrant i g) :=
  .of_parents (s := s) (fun m => by rw [pool_createGrant hf]) fun n => by
    rw [pool_createGrant hf, unitsWhere_createGrant hi, ← chargeLaw_iff.1 hc n]

theorem charge_growGrant (hf : FamilyLaw s) (hc : ChargeLaw s) (hg : s.grant? i = some g) (hv : g.units ≤ v) :
    ChargeLaw (s.growGrant i g v) :=
  .of_parents (s := s) (fun m => by rw [pool_growGrant hf]) fun n => by
    rw [pool_growGrant hf, unitsWhere_growGrant hg hv, ← chargeLaw_iff.1 hc n]

theorem charge_shrinkGrant (hf : FamilyLaw s) (hc : ChargeLaw s) (hg : s.grant? i = some g) (hv : v ≤ g.units) :
    ChargeLaw (s.shrinkGrant i g v) :=
  .of_parents (s := s) (fun m => by rw [pool_shrinkGrant hf]) fun n => by
    rw [pool_shrinkGrant hf, chargeLaw_iff.1 hc n, ← unitsWhere_shrinkGrant hg hv fun _ m => chargesPool s n m]
    exact Nat.add_sub_cancel _ _

theorem charge_freeGrant (hf : FamilyLaw s) (hc : ChargeLaw s) (i : GrantNo) : ChargeLaw (s.freeGrant i) := by
  cases hg : s.grant? i with
  | none => rwa [freeGrant_free hg]
  | some g =>
    refine .of_parents (s := s) (fun m => by rw [pool_freeGrant hf hg]) fun n => ?_
    rw [pool_freeGrant hf hg, chargeLaw_iff.1 hc n, ← unitsWhere_freeGrant hg fun _ m => chargesPool s n m]
    exact Nat.add_sub_cancel _ _

/-! ## The age list -/

theorem age_createGrant (ha : AgeLaw s) (hi : s.grant? i = none) : AgeLaw (s.createGrant i g) := by
  have hnot : i ∉ s.ageList := fun h => by rw [ha.2 i, hi] at h; cases h
  have hlist : (s.createGrant i g).ageList = s.ageList ++ [i] := by rw [createGrant_frame]
  rw [AgeLaw, hlist]
  refine ⟨List.nodup_append.2 ⟨ha.1, List.nodup_singleton i, ?_⟩, fun j => ?_⟩
  · rintro a h b hb rfl
    exact hnot (List.mem_singleton.1 hb ▸ h)
  · rw [grant?_createGrant, List.mem_append, List.mem_singleton, ha.2 j]
    split <;> simp_all

theorem age_growGrant (ha : AgeLaw s) (hg : s.grant? i = some g) : AgeLaw (s.growGrant i g v) := by
  have hlist : (s.growGrant i g v).ageList = s.ageList := by rw [growGrant_frame]
  rw [AgeLaw, hlist]
  refine ⟨ha.1, fun j => ?_⟩
  rw [grant?_growGrant, ha.2 j]
  split <;> simp_all

theorem age_shrinkGrant (ha : AgeLaw s) (hg : s.grant? i = some g) : AgeLaw (s.shrinkGrant i g v) := by
  have hlist : (s.shrinkGrant i g v).ageList = s.ageList := by rw [shrinkGrant_frame]
  rw [AgeLaw, hlist]
  refine ⟨ha.1, fun j => ?_⟩
  rw [grant?_shrinkGrant, ha.2 j]
  split <;> simp_all

theorem age_freeGrant (ha : AgeLaw s) (i : GrantNo) : AgeLaw (s.freeGrant i) := by
  cases hg : s.grant? i with
  | none => rwa [freeGrant_free hg]
  | some g =>
    have hlist : (s.freeGrant i).ageList = s.ageList.filter (· ≠ i) := by rw [freeGrant_live hg]
    rw [AgeLaw, hlist]
    refine ⟨ha.1.filter _, fun j => ?_⟩
    rw [grant?_freeGrant, List.mem_filter, ha.2 j]
    split <;> simp_all

/-! ## Quotas -/

theorem quota_createGrant (hq : QuotaLaw s) (hi : s.grant? i = none) (hroom : g.units ≤ s.quotaRoom g.port g.pool) :
    QuotaLaw (s.createGrant i g) := fun p n => by
  have hquota : (s.createGrant i g).quota p n = s.quota p n := by rw [createGrant_frame]; rfl
  have hheld := hq p n
  rw [held_eq, unitsWhere_createGrant hi, ← held_eq, hquota]
  split
  · rename_i hc
    rw [Bool.and_eq_true, beq_iff_eq, beq_iff_eq] at hc
    rw [hc.1, hc.2, quotaRoom] at hroom
    omega
  · exact hheld

theorem quota_growGrant (hq : QuotaLaw s) (hg : s.grant? i = some g) (hv : g.units ≤ v)
    (hroom : v - g.units ≤ s.quotaRoom g.port g.pool) : QuotaLaw (s.growGrant i g v) := fun p n => by
  have hquota : (s.growGrant i g v).quota p n = s.quota p n := by rw [growGrant_frame]; rfl
  have hheld := hq p n
  rw [held_eq, unitsWhere_growGrant hg hv, ← held_eq, hquota]
  split
  · rename_i hc
    rw [Bool.and_eq_true, beq_iff_eq, beq_iff_eq] at hc
    rw [hc.1, hc.2, quotaRoom] at hroom
    omega
  · exact hheld

theorem quota_shrinkGrant (hq : QuotaLaw s) (hg : s.grant? i = some g) (hv : v ≤ g.units) :
    QuotaLaw (s.shrinkGrant i g v) := fun p n => by
  have hquota : (s.shrinkGrant i g v).quota p n = s.quota p n := by rw [shrinkGrant_frame]; rfl
  have hheld := hq p n
  rw [held_eq, ← unitsWhere_shrinkGrant hg hv] at hheld
  rw [held_eq, hquota]
  omega

theorem quota_freeGrant (hq : QuotaLaw s) (i : GrantNo) : QuotaLaw (s.freeGrant i) := by
  cases hg : s.grant? i with
  | none => rwa [freeGrant_free hg]
  | some g =>
    intro p n
    have hquota : (s.freeGrant i).quota p n = s.quota p n := by rw [freeGrant_live hg]; rfl
    have hheld := hq p n
    rw [held_eq, ← unitsWhere_freeGrant hg] at hheld
    rw [held_eq, hquota]
    omega

/-! ## Derated capacities -/

theorem effective_of_derated {q : Pool} (h : q.derateState = .derated) : q.effective = q.derated := by
  rw [Pool.effective, h]

theorem effective_of_normal {q : Pool} (h : q.derateState = .normal) : q.effective = q.nominal := by
  rw [Pool.effective, h]

theorem derate_createGrant (hf : FamilyLaw s) (hd : DerateLaw s) (hroom : g.units ≤ s.available g.pool) :
    DerateLaw (s.createGrant i g) := fun n => by
  rw [pool_createGrant hf]
  refine ⟨(hd n).1, fun (hn : (s.pool n).derateState = .derated) => ?_⟩
  have hwithin := charged_add_le (m := n) hroom (by rw [effective_of_derated hn]; exact (hd n).2 hn)
  rwa [effective_of_derated hn] at hwithin

theorem derate_growGrant (hf : FamilyLaw s) (hd : DerateLaw s) (hroom : v - g.units ≤ s.available g.pool) :
    DerateLaw (s.growGrant i g v) := fun n => by
  rw [pool_growGrant hf]
  refine ⟨(hd n).1, fun (hn : (s.pool n).derateState = .derated) => ?_⟩
  have hwithin := charged_add_le (m := n) hroom (by rw [effective_of_derated hn]; exact (hd n).2 hn)
  rwa [effective_of_derated hn] at hwithin

theorem derate_shrinkGrant (hf : FamilyLaw s) (hd : DerateLaw s) : DerateLaw (s.shrinkGrant i g v) := fun n => by
  rw [pool_shrinkGrant hf]
  exact ⟨(hd n).1, fun hn => Nat.le_trans (Nat.sub_le _ _) ((hd n).2 hn)⟩

theorem derate_freeGrant (hf : FamilyLaw s) (hd : DerateLaw s) (i : GrantNo) : DerateLaw (s.freeGrant i) := by
  cases hg : s.grant? i with
  | none => rwa [freeGrant_free hg]
  | some g =>
    intro n
    rw [pool_freeGrant hf hg]
    exact ⟨(hd n).1, fun hn => Nat.le_trans (Nat.sub_le _ _) ((hd n).2 hn)⟩

end State

end Sys2Proof.Machine
end

section
/-! Proofs, part 3: what a shed does to the pools and to the laws (R87 to R91): charged sums fall alone, and that of the shed
pool to its effective capacity at the most. -/

namespace Sys2Proof.Machine

/-! ## Pools of which nothing but charged sums and queues moved -/

namespace PoolsKeepFigures

variable {s t u : State}

theorem refl (s : State) : PoolsKeepFigures s s := fun _ => rfl

theorem trans (h : PoolsKeepFigures s t) (k : PoolsKeepFigures t u) : PoolsKeepFigures s u := fun n => by rw [k n, h n]

theorem parent (h : PoolsKeepFigures s t) (n : PoolNo) : (t.pool n).parent = (s.pool n).parent := by rw [h n]

theorem effective (h : PoolsKeepFigures s t) (n : PoolNo) : (t.pool n).effective = (s.pool n).effective := by
  rw [h n]; rfl

theorem family (h : PoolsKeepFigures s t) (hf : FamilyLaw s) : FamilyLaw t :=
  hf.congr (fun n => by rw [h n]) h.parent

theorem chargesPool (h : PoolsKeepFigures s t) (n m : PoolNo) : chargesPool t n m = chargesPool s n m :=
  chargesPool_congr h.parent n m

end PoolsKeepFigures

theorem SameAccounts.figures {s t : State} (h : SameAccounts s t) : PoolsKeepFigures s t := fun n => by rw [h.pools n]

namespace State

variable {s t : State} {i : GrantNo} {g : Grant} {v : Nat} {n : PoolNo}

theorem figures_createGrant (hf : FamilyLaw s) : PoolsKeepFigures s (s.createGrant i g) := fun m => by
  rw [pool_createGrant hf]

theorem figures_shrinkGrant (hf : FamilyLaw s) : PoolsKeepFigures s (s.shrinkGrant i g v) := fun m => by
  rw [pool_shrinkGrant hf]

theorem figures_freeGrant (hf : FamilyLaw s) (i : GrantNo) : PoolsKeepFigures s (s.freeGrant i) := by
  cases hg : s.grant? i with
  | none => rw [freeGrant_free hg]; exact .refl s
  | some g => intro m; rw [pool_freeGrant hf hg]

/-! ## Notices -/

theorem same_post (s : State) (p : Port) (x : Notice) : SameAccounts s (s.post p x) := .of_tables rfl rfl rfl rfl

/-! ## The laws through a shed -/

theorem family_shed (hf : FamilyLaw s) (n : PoolNo) : FamilyLaw (s.shed n) :=
  shed_induct (fun _ _ _ _ h _ _ _ => (same_post _ _ _).family (family_shrinkGrant h))
    (fun _ i _ h _ => (same_post _ _ _).family (family_freeGrant h i)) s n hf

theorem charge_shed (hf : FamilyLaw s) (hc : ChargeLaw s) (n : PoolNo) : ChargeLaw (s.shed n) :=
  (shed_induct (P := fun t => FamilyLaw t ∧ ChargeLaw t)
    (fun _ _ _ _ h hg _ hv =>
      ⟨(same_post _ _ _).family (family_shrinkGrant h.1),
        (same_post _ _ _).charge (charge_shrinkGrant h.1 h.2 hg (Nat.le_of_lt hv))⟩)
    (fun _ i _ h _ =>
      ⟨(same_post _ _ _).family (family_freeGrant h.1 i), (same_post _ _ _).charge (charge_freeGrant h.1 h.2 i)⟩)
    s n ⟨hf, hc⟩).2

theorem age_shed (ha : AgeLaw s) (n : PoolNo) : AgeLaw (s.shed n) :=
  shed_induct (fun _ _ _ _ h hg _ _ => (same_post _ _ _).age (age_shrinkGrant h hg))
    (fun _ i _ h _ => (same_post _ _ _).age (age_freeGrant h i)) s n ha

theorem quota_shed (hq : QuotaLaw s) (n : PoolNo) : QuotaLaw (s.shed n) :=
  shed_induct (fun _ _ _ _ h hg _ hv => (same_post _ _ _).quota (quota_shrinkGrant h hg (Nat.le_of_lt hv)))
    (fun _ i _ h _ => (same_post _ _ _).quota (quota_freeGrant h i)) s n hq

/-! ## A shed lowers charged sums and moves nothing else of a pool -/

end State

/-- From `s` to `t` charged sums fall or stay, and nothing else of any pool moves. -/
def ChargesFall (s t : State) : Prop :=
  ∀ m, t.pool m = { s.pool m with charged := (t.pool m).charged } ∧ (t.pool m).charged ≤ (s.pool m).charged

namespace ChargesFall

variable {s t u : State}

theorem refl (s : State) : ChargesFall s s := fun _ => ⟨rfl, Nat.le_refl _⟩

theorem trans (h : ChargesFall s t) (k : ChargesFall t u) : ChargesFall s u := fun m =>
  ⟨by rw [(k m).1, (h m).1], Nat.le_trans (k m).2 (h m).2⟩

theorem of_pools (h : t.pools = s.pools) : ChargesFall s t := fun m => by
  have hm : t.pool m = s.pool m := by simp only [State.pool, h]
  rw [hm]; exact ⟨rfl, Nat.le_refl _⟩

theorem figures (h : ChargesFall s t) : PoolsKeepFigures s t := fun m => by rw [(h m).1]

end ChargesFall

namespace State

variable {s t : State} {i : GrantNo} {g : Grant} {v : Nat} {n : PoolNo}

theorem chargesFall_shrinkGrant (hf : FamilyLaw s) : ChargesFall s (s.shrinkGrant i g v) := fun m => by
  rw [pool_shrinkGrant hf]; exact ⟨rfl, Nat.sub_le _ _⟩

theorem chargesFall_freeGrant (hf : FamilyLaw s) (i : GrantNo) : ChargesFall s (s.freeGrant i) := by
  cases hg : s.grant? i with
  | none => rw [freeGrant_free hg]; exact .refl s
  | some g => intro m; rw [pool_freeGrant hf hg]; exact ⟨rfl, Nat.sub_le _ _⟩

theorem chargesFall_shed (hf : FamilyLaw s) (n : PoolNo) : ChargesFall s (s.shed n) :=
  (shed_induct (P := fun t => FamilyLaw t ∧ ChargesFall s t)
    (fun _ _ _ _ h _ _ _ => ⟨(same_post _ _ _).family (family_shrinkGrant h.1),
      (h.2.trans (chargesFall_shrinkGrant h.1)).trans (.of_pools rfl)⟩)
    (fun _ i _ h _ => ⟨(same_post _ _ _).family (family_freeGrant h.1 i),
      (h.2.trans (chargesFall_freeGrant h.1 i)).trans (.of_pools rfl)⟩)
    s n ⟨hf, .refl s⟩).2

/-! ## A shed brings its pool within its effective capacity -/

end State

/-- Every candidate of a list that is live is charged to pool `n`. -/
def AllCharged (s : State) (n : PoolNo) (l : List GrantNo) : Prop :=
  ∀ i ∈ l, ∀ g ∈ s.grant? i, chargesPool s n g.pool = true

/-- The charged sum of pool `n` exceeds its effective capacity by `excess` at the most. -/
def ExceedsBy (s : State) (n : PoolNo) (excess : Nat) : Prop :=
  (s.pool n).charged ≤ (s.pool n).effective + excess

namespace State

variable {s t : State} {i : GrantNo} {g : Grant} {v : Nat} {n : PoolNo}

theorem mem_shedRanking : i ∈ s.shedRanking n ↔ i ∈ s.ageList ∧ ∃ g ∈ s.grant? i, chargesPool s n g.pool = true := by
  have charged : ∀ g, s.chargedTo n g = chargesPool s n g.pool := fun _ => rfl
  unfold shedRanking
  simp only [List.mem_flatMap, List.mem_filter, List.mem_reverse, charged]
  cases hg : s.grant? i with
  | none => simp
  | some g =>
    have hk : ∀ k : Fin 4, k ∈ ([3, 2, 1, 0] : List (Fin 4)) := by decide
    simp only [Option.mem_def, Option.some.injEq, exists_eq_left', beq_iff_eq]
    exact ⟨fun ⟨_, _, h, _⟩ => h, fun h => ⟨_, hk _, h, rfl⟩⟩

/-- The trim phase keeps pools' figures and which pool each slot's grant is of, and takes what it trims off the excess. -/
theorem trimPhase_effect (l : List GrantNo) : ∀ {t : State} {e : Nat}, FamilyLaw t → AllCharged t n l →
    ExceedsBy t n e →
    PoolsKeepFigures t (t.trimPhase e l).1 ∧
      (∀ i, ((t.trimPhase e l).1.grant? i).map Grant.pool = (t.grant? i).map Grant.pool) ∧
      ExceedsBy (t.trimPhase e l).1 n (t.trimPhase e l).2 := by
  induction l with
  | nil => intro t e _ _ he; exact ⟨.refl t, fun _ => rfl, he⟩
  | cons i rest ih =>
    intro t e hf hl he
    have hrest : AllCharged t n rest := fun j hj => hl j (List.mem_cons_of_mem i hj)
    unfold trimPhase
    split
    · rename_i h0; subst h0; exact ⟨.refl t, fun _ => rfl, he⟩
    cases hg : t.grant? i with
    | none => exact ih hf hrest he
    | some g =>
      simp only
      split
      · exact ih hf hrest he
      generalize hk : min (g.units - g.floor) e = k
      generalize hu : (t.shrinkGrant i g (g.units - k)).post g.port (.trimmed (t.handleOf i) (g.units - k)) = u
      have hpost : SameAccounts (t.shrinkGrant i g (g.units - k)) u := hu ▸ same_post _ _ _
      have hfig : PoolsKeepFigures t u := (figures_shrinkGrant hf).trans hpost.figures
      have hgrant : ∀ j, u.grant? j =
          if j = i then some { g with units := g.units - k, floor := min g.floor (g.units - k) } else t.grant? j := by
        intro j; rw [← hu]; exact grant?_shrinkGrant t i j g (g.units - k)
      have hpool : ∀ j, (u.grant? j).map Grant.pool = (t.grant? j).map Grant.pool := by
        intro j; rw [hgrant j]; split
        · rename_i hj; rw [hj, hg]; rfl
        · rfl
      have hcharged : AllCharged u n rest := by
        intro j hj h hh
        rw [hfig.chargesPool]
        have hm := hpool j
        rw [Option.mem_def.1 hh] at hm
        obtain ⟨h', hh', he'⟩ := Option.map_eq_some_iff.1 hm.symm
        exact he' ▸ hrest j hj h' hh'
      have hexcess : ExceedsBy u n (e - k) := by
        have hin : chargesPool t n g.pool = true := hl i List.mem_cons_self g hg
        rw [ExceedsBy, hfig.effective, hpost.pools n, pool_shrinkGrant hf]
        simp only [hin, if_true]
        unfold ExceedsBy at he
        omega
      obtain ⟨h1, h2, h3⟩ := ih (hfig.family hf) hcharged hexcess
      exact ⟨hfig.trans h1, fun j => (h2 j).trans (hpool j), h3⟩

/-- The revoke phase ends with the pool within its effective capacity, or with every candidate freed. A grant that is live
after it was live before it. -/
theorem revokePhase_effect (l : List GrantNo) : ∀ {t : State} {e : Nat}, FamilyLaw t → AllCharged t n l →
    ExceedsBy t n e →
    ExceedsBy (t.revokePhase e l) n 0 ∨
      ∀ i, ∀ g ∈ (t.revokePhase e l).grant? i, i ∉ l ∧ t.grant? i = some g := by
  induction l with
  | nil => intro t e _ _ _; exact .inr fun i g hg => ⟨List.not_mem_nil, hg⟩
  | cons i rest ih =>
    intro t e hf hl he
    have hrest : AllCharged t n rest := fun j hj => hl j (List.mem_cons_of_mem i hj)
    unfold revokePhase
    split
    · rename_i h0; subst h0; exact .inl he
    cases hg : t.grant? i with
    | none =>
      refine (ih hf hrest he).imp id fun h j g' hj => ?_
      obtain ⟨hnot, hlive⟩ := h j g' hj
      refine ⟨List.not_mem_cons_of_ne_of_not_mem ?_ hnot, hlive⟩
      rintro rfl; rw [hg] at hlive; cases hlive
    | some g =>
      simp only
      generalize hu : (t.freeGrant i).post g.port (.revoked (t.handleOf i) .shed) = u
      have hpost : SameAccounts (t.freeGrant i) u := hu ▸ same_post _ _ _
      have hfig : PoolsKeepFigures t u := (figures_freeGrant hf i).trans hpost.figures
      have hgrant : ∀ j, u.grant? j = if j = i then none else t.grant? j := by
        intro j; rw [← hu]; exact grant?_freeGrant t i j
      have hlive : ∀ j h, u.grant? j = some h → j ≠ i ∧ t.grant? j = some h := by
        intro j h hj
        rw [hgrant j] at hj
        split at hj
        · cases hj
        · rename_i hne; exact ⟨hne, hj⟩
      have hcharged : AllCharged u n rest := fun j hj h hh => by
        rw [hfig.chargesPool]; exact hrest j hj h (hlive j h hh).2
      have hexcess : ExceedsBy u n (e - g.units) := by
        have hin : chargesPool t n g.pool = true := hl i List.mem_cons_self g hg
        rw [ExceedsBy, hfig.effective, hpost.pools n, pool_freeGrant hf hg]
        simp only [hin, if_true]
        unfold ExceedsBy at he
        omega
      refine (ih (hfig.family hf) hcharged hexcess).imp id fun h j g' hj => ?_
      obtain ⟨hnot, hin⟩ := h j g' hj
      obtain ⟨hne, hin⟩ := hlive j g' hin
      exact ⟨List.not_mem_cons_of_ne_of_not_mem hne hnot, hin⟩

/-- A shed leaves its pool within its effective capacity (R91): it may revoke every grant charged to the pool. -/
theorem shed_within (hf : FamilyLaw s) (hc : ChargeLaw s) (ha : AgeLaw s) (n : PoolNo) :
    ((s.shed n).pool n).charged ≤ ((s.shed n).pool n).effective := by
  have hranked : AllCharged s n (s.shedRanking n) := by
    intro i hi g hg
    obtain ⟨_, g', hg', hin⟩ := mem_shedRanking.1 hi
    exact Option.some.inj (hg.symm.trans hg') ▸ hin
  obtain ⟨hfig, hpool, hexcess⟩ := trimPhase_effect (s.shedRanking n) hf hranked
    (show ExceedsBy s n (s.pool n).excess by unfold ExceedsBy Pool.excess; omega)
  have hlaws : ChargeLaw (s.shed n) := charge_shed hf hc n
  have hfigAll : PoolsKeepFigures s (s.shed n) := (chargesFall_shed hf n).figures
  have hshed : s.shed n = (s.trimPhase (s.pool n).excess (s.shedRanking n)).1.revokePhase
      (s.trimPhase (s.pool n).excess (s.shedRanking n)).2 (s.shedRanking n) := rfl
  generalize s.trimPhase (s.pool n).excess (s.shedRanking n) = x at hfig hpool hexcess hshed
  have trimmed : ∀ i g, x.1.grant? i = some g → ∃ g' ∈ s.grant? i, g'.pool = g.pool := by
    intro i g hg
    have hm := hpool i
    rw [hg] at hm
    exact Option.map_eq_some_iff.1 hm.symm
  have hx : AllCharged x.1 n (s.shedRanking n) := by
    intro i hi g hg
    obtain ⟨g', hg', he⟩ := trimmed i g hg
    rw [hfig.chargesPool, ← he]; exact hranked i hi g' hg'
  have hend := revokePhase_effect (s.shedRanking n) (hfig.family hf) hx hexcess
  rw [← hshed] at hend
  rcases hend with h | h
  · exact h
  · have hzero : ((s.shed n).pool n).charged = 0 := by
      rw [chargeLaw_iff.1 hlaws n]
      refine unitsWhere_eq_zero fun i g hg => ?_
      obtain ⟨hnot, hlive⟩ := h i g hg
      obtain ⟨g', hg', he⟩ := trimmed i g hlive
      rw [hfigAll.chargesPool, ← he, ← Bool.not_eq_true]
      intro hin
      refine hnot (mem_shedRanking.2 ⟨(ha.2 i).2 ?_, g', hg', hin⟩)
      rw [Option.mem_def.1 hg']; rfl
    omega

end State

end Sys2Proof.Machine
end

section
/-! Proofs, part 4: validation finds the first fault of R149's table, and an image that passes loads a lawful profile (R144
to R149). -/

namespace Sys2Proof.Machine

/-! ## The checks and the faults -/

/-- A check of validation fails with this detail code at this offset. -/
def CheckFails (l : List ImageCheck) (code offset : Nat) : Prop :=
  ∃ c ∈ l, c.fails = true ∧ c.code.toNat = code ∧ c.offset = offset

/-- The order in which validation reports: by offset, and at one offset by detail code (R149). -/
def ReportedBy (code offset c o : Nat) : Prop := offset < o ∨ (offset = o ∧ code ≤ c)

theorem ReportedBy.trans {c o c' o' c'' o'' : Nat} (h : ReportedBy c o c' o') (k : ReportedBy c' o' c'' o'') :
    ReportedBy c o c'' o'' := by unfold ReportedBy at *; omega

theorem ReportedBy.antisymm {c o c' o' : Nat} (h : ReportedBy c o c' o') (k : ReportedBy c' o' c o) :
    c = c' ∧ o = o' := by unfold ReportedBy at *; omega

/-- Detail code and offset of every check, in the order validation makes them: they do not depend on the image. -/
def checkKeys : List (Nat × Nat) := (imageChecks []).map fun c => (c.code.toNat, c.offset)

theorem keys_imageChecks (m : Memory) : ((imageChecks m).map fun c => (c.code.toNat, c.offset)) = checkKeys := by
  simp [checkKeys, imageChecks, poolChecks, portChecks, rangeCheck, List.map_flatMap]

/-- Two keys, each a detail code and an offset, in the order of reporting. -/
def KeysInOrder (a b : Nat × Nat) : Prop := ReportedBy a.1 a.2 b.1 b.2

/-- Each check is reported before the next, so, the order being transitive, before every later one. -/
theorem checkKeys_sorted : checkKeys.Pairwise KeysInOrder := by
  have chain : checkKeys.IsChain fun a b => a.2 < b.2 ∨ (a.2 = b.2 ∧ a.1 ≤ b.1) := by decide +kernel
  have transitive : Trans KeysInOrder KeysInOrder KeysInOrder := ⟨ReportedBy.trans⟩
  exact List.isChain_iff_pairwise.1 chain

/-- The checks are made in the order they are reported in. -/
theorem imageChecks_sorted (m : Memory) :
    (imageChecks m).Pairwise fun a b => ReportedBy a.code.toNat a.offset b.code.toNat b.offset := by
  have h := checkKeys_sorted
  rw [← keys_imageChecks m, List.pairwise_map] at h
  exact h

theorem checkFails_append {l k : List ImageCheck} {code offset : Nat} :
    CheckFails (l ++ k) code offset ↔ CheckFails l code offset ∨ CheckFails k code offset := by
  simp only [CheckFails, List.mem_append, or_and_right, exists_or]

theorem checkFails_flatMap {f : Nat → List ImageCheck} {n code offset : Nat} :
    CheckFails ((List.range n).flatMap f) code offset ↔ ∃ i : Fin n, CheckFails (f i) code offset := by
  simp only [CheckFails, List.mem_flatMap, List.mem_range]
  constructor
  · rintro ⟨c, ⟨i, hi, hc⟩, h⟩; exact ⟨⟨i, hi⟩, c, hc, h⟩
  · rintro ⟨i, c, hc, h⟩; exact ⟨c, ⟨i, i.isLt, hc⟩, h⟩

theorem checkFails_cons {c : ImageCheck} {l : List ImageCheck} {code offset : Nat} :
    CheckFails (c :: l) code offset ↔
      (c.fails = true ∧ c.code.toNat = code ∧ c.offset = offset) ∨ CheckFails l code offset := by
  simp only [CheckFails, List.mem_cons, or_and_right, exists_or, exists_eq_left]

theorem checkFails_nil {code offset : Nat} : ¬ CheckFails [] code offset := fun ⟨_, h, _⟩ => absurd h List.not_mem_nil

/-- The failing checks of a pool's record. A check of the parent's own record is made of a parent above 7 too, but then the
check before it, at the same offset, has failed. -/
theorem poolChecks_fail {m : Memory} {n code offset : Nat} :
    CheckFails (poolChecks m n) code offset ↔
      ((m.read (4 + 8 * n) ≠ 0x00 ∧ m.read (4 + 8 * n) ≠ 0x01) ∧ 0x03 = code ∧ 4 + 8 * n = offset) ∨
      (((m.read (4 + 8 * n) = 0x01 ∧ (m.read (5 + 8 * n)).toNat ≠ 255) ∧ 7 < (m.read (5 + 8 * n)).toNat) ∧
        0x04 = code ∧ 5 + 8 * n = offset) ∨
      (((m.read (4 + 8 * n) = 0x01 ∧ (m.read (5 + 8 * n)).toNat ≠ 255) ∧ (m.read (5 + 8 * n)).toNat = n) ∧
        0x05 = code ∧ 5 + 8 * n = offset) ∨
      (((m.read (4 + 8 * n) = 0x01 ∧ (m.read (5 + 8 * n)).toNat ≠ 255) ∧
        m.read (4 + 8 * (m.read (5 + 8 * n)).toNat) ≠ 0x01) ∧ 0x06 = code ∧ 5 + 8 * n = offset) ∨
      (((m.read (4 + 8 * n) = 0x01 ∧ (m.read (5 + 8 * n)).toNat ≠ 255) ∧
        m.read (5 + 8 * (m.read (5 + 8 * n)).toNat) ≠ 0xFF) ∧ 0x07 = code ∧ 5 + 8 * n = offset) ∨
      ((m.read (4 + 8 * n) = 0x01 ∧ imageWord m (6 + 8 * n) < imageWord m (8 + 8 * n)) ∧
        0x08 = code ∧ 8 + 8 * n = offset) ∨
      ((m.read (4 + 8 * n) = 0x01 ∧ 2 < (m.read (10 + 8 * n)).toNat) ∧ 0x09 = code ∧ 10 + 8 * n = offset) ∨
      ((m.read (4 + 8 * n) = 0x01 ∧ 1 < (m.read (11 + 8 * n)).toNat) ∧ 0x0A = code ∧ 11 + 8 * n = offset) := by
  have at_ (k : Nat) : 4 + 8 * n + k = (4 + k) + 8 * n := by omega
  simp only [poolChecks, at_, checkFails_cons, checkFails_nil, or_false, Bool.and_eq_true, beq_iff_eq, bne_iff_ne,
    decide_eq_true_iff, Nat.reduceAdd, BitVec.reduceToNat]

theorem portChecks_fail {m : Memory} {p code offset : Nat} :
    CheckFails (portChecks m p) code offset ↔
      (3 < (m.read (68 + 22 * p)).toNat ∧ 0x0B = code ∧ 68 + 22 * p = offset) ∨
      (7 < (m.read (69 + 22 * p)).toNat ∧ 0x0C = code ∧ 69 + 22 * p = offset) ∨
      (imageWord m (70 + 22 * p) < 20 ∧ 0x0D = code ∧ 70 + 22 * p = offset) ∨
      (60000 < imageWord m (72 + 22 * p) ∧ 0x0E = code ∧ 72 + 22 * p = offset) ∨
      (imageWord m (72 + 22 * p) < imageWord m (70 + 22 * p) ∧ 0x0F = code ∧ 72 + 22 * p = offset) := by
  have at_ (k : Nat) : 68 + 22 * p + k = (68 + k) + 22 * p := by omega
  simp only [portChecks, at_, checkFails_cons, checkFails_nil, or_false, decide_eq_true_iff, Nat.reduceAdd,
    BitVec.reduceToNat]

/-- The failing checks of an image, by its records and single fields. -/
theorem imageChecks_fail {m : Memory} {code offset : Nat} :
    CheckFails (imageChecks m) code offset ↔
      (imageWord m 0 = 0 ∧ 0x01 = code ∧ 0 = offset) ∨
      ((imageWord m 2 < 4000 ∨ 16000 < imageWord m 2) ∧ 0x02 = code ∧ 2 = offset) ∨
      (∃ n : PoolNo, CheckFails (poolChecks m n) code offset) ∨
      (∃ p : Port, CheckFails (portChecks m p) code offset) ∨
      (16 < (m.read 156).toNat ∧ 0x10 = code ∧ 156 = offset) ∨
      ((imageWord m 157 < 1 ∨ 1000 < imageWord m 157) ∧ 0x11 = code ∧ 157 = offset) ∨
      ((imageWord m 159 < 10 ∨ 60000 < imageWord m 159) ∧ 0x12 = code ∧ 159 = offset) ∨
      ((imageWord m 161 < 1 ∨ 1000 < imageWord m 161) ∧ 0x11 = code ∧ 161 = offset) ∨
      ((imageWord m 163 < 10 ∨ 60000 < imageWord m 163) ∧ 0x12 = code ∧ 163 = offset) ∨
      ((imageWord m 165 < 100 ∨ 10000 < imageWord m 165) ∧ 0x13 = code ∧ 165 = offset) ∨
      ((m.read 167 ≠ 0x00 ∧ m.read 167 ≠ 0x01) ∧ 0x14 = code ∧ 167 = offset) ∨
      ∃ k, k < 69 ∧ m.read (184 + k) ≠ 0xFF ∧ 0x15 = code ∧ 184 + k = offset := by
  have padding : CheckFails ((List.range 69).map fun k => ⟨m.read (184 + k) != 0xFF, 0x15, 184 + k⟩) code offset ↔
      ∃ k, k < 69 ∧ m.read (184 + k) ≠ 0xFF ∧ 0x15 = code ∧ 184 + k = offset := by
    simp only [CheckFails, List.mem_map, List.mem_range]
    constructor
    · rintro ⟨_, ⟨k, hk, rfl⟩, hf, hc, ho⟩; exact ⟨k, hk, bne_iff_ne.1 hf, hc, ho⟩
    · rintro ⟨k, hk, hf, hc, ho⟩; exact ⟨_, ⟨k, hk, rfl⟩, bne_iff_ne.2 hf, hc, ho⟩
  simp only [imageChecks, rangeCheck, checkFails_append, checkFails_flatMap, checkFails_cons, checkFails_nil, or_false,
    padding, Bool.and_eq_true, Bool.or_eq_true, beq_iff_eq, bne_iff_ne, decide_eq_true_iff, BitVec.reduceToNat, or_assoc]

theorem byte_ne_ff {b : Byte} : b ≠ 0xFF ↔ b.toNat ≠ 255 := by
  rw [ne_eq, ne_eq, ← BitVec.toNat_inj]; rfl

/-- Some bit above the lowest three is set exactly in the bytes above 7 (R149, code 0x0C). -/
theorem high_bits_iff (b : Byte) : b &&& 0xF8 ≠ 0 ↔ 7 < b.toNat := by revert b; decide

/-- A fault of a pool's record makes the check of its code fail. -/
theorem PoolFault.checkFails {m : Memory} {n : PoolNo} {code offset : Nat} (h : PoolFault m n code offset) :
    CheckFails (poolChecks m n) code offset := by
  refine poolChecks_fail.2 ?_
  have hn := n.isLt
  obtain ⟨rfl, rfl, h0, h1⟩ | ⟨hd, ⟨rfl, rfl, hff, h7⟩ | ⟨rfl, rfl, hself⟩ |
    ⟨r, hr, ⟨rfl, rfl, hundef⟩ | ⟨rfl, rfl, hbranch⟩⟩ | ⟨rfl, rfl, hcap⟩ | ⟨rfl, rfl, hg⟩ | ⟨rfl, rfl, hp⟩⟩ := h
  · exact .inl ⟨⟨h0, h1⟩, rfl, rfl⟩
  · exact .inr (.inl ⟨⟨⟨hd, byte_ne_ff.1 hff⟩, h7⟩, rfl, rfl⟩)
  · exact .inr (.inr (.inl ⟨⟨⟨hd, by omega⟩, hself⟩, rfl, rfl⟩))
  · have hlt := r.isLt
    exact .inr (.inr (.inr (.inl ⟨⟨⟨hd, by omega⟩, by rwa [hr]⟩, rfl, rfl⟩)))
  · have hlt := r.isLt
    exact .inr (.inr (.inr (.inr (.inl ⟨⟨⟨hd, by omega⟩, by rwa [hr]⟩, rfl, rfl⟩))))
  · exact .inr (.inr (.inr (.inr (.inr (.inl ⟨⟨hd, hcap⟩, rfl, rfl⟩)))))
  · exact .inr (.inr (.inr (.inr (.inr (.inr (.inl ⟨⟨hd, hg⟩, rfl, rfl⟩))))))
  · exact .inr (.inr (.inr (.inr (.inr (.inr (.inr ⟨⟨hd, hp⟩, rfl, rfl⟩))))))

/-- A failing check of a pool's record finds a fault, if not its own then the one of the parent's number before it. -/
theorem poolFault_of_checkFails {m : Memory} {n : PoolNo} {code offset : Nat}
    (h : CheckFails (poolChecks m n) code offset) :
    ∃ c o, PoolFault m n c o ∧ ReportedBy c o code offset := by
  have own {c o : Nat} (hf : PoolFault m n c o) : ∃ c' o', PoolFault m n c' o' ∧ ReportedBy c' o' c o :=
    ⟨c, o, hf, .inr ⟨rfl, Nat.le_refl c⟩⟩
  have above {c : Nat} (hc : 4 ≤ c) (hd : m.read (4 + 8 * n) = 0x01) (hff : (m.read (5 + 8 * n)).toNat ≠ 255)
      (h7 : 7 < (m.read (5 + 8 * n)).toNat) :
      ∃ c' o', PoolFault m n c' o' ∧ ReportedBy c' o' c (5 + 8 * n) :=
    ⟨0x04, _, .inr ⟨hd, .inl ⟨rfl, rfl, byte_ne_ff.2 hff, h7⟩⟩, .inr ⟨rfl, hc⟩⟩
  obtain ⟨⟨h0, h1⟩, rfl, rfl⟩ | ⟨⟨⟨hd, hff⟩, h7⟩, rfl, rfl⟩ | ⟨⟨⟨hd, hff⟩, hself⟩, rfl, rfl⟩ |
    ⟨⟨⟨hd, hff⟩, hundef⟩, rfl, rfl⟩ | ⟨⟨⟨hd, hff⟩, hbranch⟩, rfl, rfl⟩ | ⟨⟨hd, hcap⟩, rfl, rfl⟩ |
    ⟨⟨hd, hg⟩, rfl, rfl⟩ | ⟨⟨hd, hp⟩, rfl, rfl⟩ := poolChecks_fail.1 h
  · exact own (.inl ⟨rfl, rfl, h0, h1⟩)
  · exact above (Nat.le_refl 4) hd hff h7
  · exact own (.inr ⟨hd, .inr (.inl ⟨rfl, rfl, hself⟩)⟩)
  · rcases Nat.lt_or_ge 7 (m.read (5 + 8 * n)).toNat with h7 | h7
    · exact above (by decide) hd hff h7
    · exact own (.inr ⟨hd, .inr (.inr (.inl ⟨⟨(m.read (5 + 8 * n)).toNat, by omega⟩, rfl, .inl ⟨rfl, rfl, hundef⟩⟩))⟩)
  · rcases Nat.lt_or_ge 7 (m.read (5 + 8 * n)).toNat with h7 | h7
    · exact above (by decide) hd hff h7
    · exact own (.inr ⟨hd, .inr (.inr (.inl ⟨⟨(m.read (5 + 8 * n)).toNat, by omega⟩, rfl, .inr ⟨rfl, rfl, hbranch⟩⟩))⟩)
  · exact own (.inr ⟨hd, .inr (.inr (.inr (.inl ⟨rfl, rfl, hcap⟩)))⟩)
  · exact own (.inr ⟨hd, .inr (.inr (.inr (.inr (.inl ⟨rfl, rfl, hg⟩))))⟩)
  · exact own (.inr ⟨hd, .inr (.inr (.inr (.inr (.inr ⟨rfl, rfl, hp⟩))))⟩)

theorem portFault_iff {m : Memory} {p : Port} {code offset : Nat} :
    PortFault m p code offset ↔ CheckFails (portChecks m p) code offset := by
  rw [portChecks_fail, PortFault]
  simp only [high_bits_iff]
  constructor
  · rintro (⟨rfl, rfl, h⟩ | ⟨rfl, rfl, h⟩ | ⟨rfl, rfl, h⟩ | ⟨rfl, rfl, h⟩ | ⟨rfl, rfl, h⟩) <;> simp [h]
  · rintro (⟨h, rfl, rfl⟩ | ⟨h, rfl, rfl⟩ | ⟨h, rfl, rfl⟩ | ⟨h, rfl, rfl⟩ | ⟨h, rfl, rfl⟩) <;> simp [h]

/-- A fault of R149's table makes the check of its code at its offset fail. -/
theorem ImageFault.checkFails {m : Memory} {code offset : Nat} (h : ImageFault m code offset) :
    CheckFails (imageChecks m) code offset := by
  refine imageChecks_fail.2 ?_
  obtain ⟨rfl, rfl, h⟩ | ⟨rfl, rfl, h⟩ | ⟨n, h⟩ | ⟨p, h⟩ | ⟨rfl, rfl, h⟩ | ⟨rfl, rfl | rfl, h⟩ | ⟨rfl, rfl | rfl, h⟩ |
    ⟨rfl, rfl, h⟩ | ⟨rfl, rfl, h⟩ | ⟨rfl, hlo, hhi, h⟩ := h
  · exact .inl ⟨h, rfl, rfl⟩
  · exact .inr (.inl ⟨by omega, rfl, rfl⟩)
  · exact .inr (.inr (.inl ⟨n, h.checkFails⟩))
  · exact .inr (.inr (.inr (.inl ⟨p, portFault_iff.1 h⟩)))
  · exact .inr (.inr (.inr (.inr (.inl ⟨h, rfl, rfl⟩))))
  · exact .inr (.inr (.inr (.inr (.inr (.inl ⟨by omega, rfl, rfl⟩)))))
  · exact .inr (.inr (.inr (.inr (.inr (.inr (.inr (.inl ⟨by omega, rfl, rfl⟩)))))))
  · exact .inr (.inr (.inr (.inr (.inr (.inr (.inl ⟨by omega, rfl, rfl⟩))))))
  · exact .inr (.inr (.inr (.inr (.inr (.inr (.inr (.inr (.inl ⟨by omega, rfl, rfl⟩))))))))
  · exact .inr (.inr (.inr (.inr (.inr (.inr (.inr (.inr (.inr (.inl ⟨by omega, rfl, rfl⟩)))))))))
  · exact .inr (.inr (.inr (.inr (.inr (.inr (.inr (.inr (.inr (.inr (.inl ⟨h, rfl, rfl⟩))))))))))
  · refine .inr (.inr (.inr (.inr (.inr (.inr (.inr (.inr (.inr (.inr (.inr ⟨offset - 184, ?_⟩))))))))))
    rw [Nat.add_sub_cancel' hlo]
    exact ⟨by omega, h, rfl, rfl⟩

/-- A failing check finds a fault of R149's table that is reported no later. -/
theorem imageFault_of_checkFails {m : Memory} {code offset : Nat} (hc : CheckFails (imageChecks m) code offset) :
    ∃ c o, ImageFault m c o ∧ ReportedBy c o code offset := by
  have own {c o : Nat} (hf : ImageFault m c o) : ∃ c' o', ImageFault m c' o' ∧ ReportedBy c' o' c o :=
    ⟨c, o, hf, .inr ⟨rfl, Nat.le_refl c⟩⟩
  obtain ⟨h, rfl, rfl⟩ | ⟨h, rfl, rfl⟩ | ⟨n, h⟩ | ⟨p, h⟩ | ⟨h, rfl, rfl⟩ | ⟨h, rfl, rfl⟩ | ⟨h, rfl, rfl⟩ | ⟨h, rfl, rfl⟩ |
    ⟨h, rfl, rfl⟩ | ⟨h, rfl, rfl⟩ | ⟨h, rfl, rfl⟩ | ⟨k, hk, h, rfl, rfl⟩ := imageChecks_fail.1 hc
  · exact own (.inl ⟨rfl, rfl, h⟩)
  · exact own (.inr (.inl ⟨rfl, rfl, by omega⟩))
  · obtain ⟨c, o, hf, hr⟩ := poolFault_of_checkFails h
    exact ⟨c, o, .inr (.inr (.inl ⟨n, hf⟩)), hr⟩
  · exact own (.inr (.inr (.inr (.inl ⟨p, portFault_iff.2 h⟩))))
  · exact own (.inr (.inr (.inr (.inr (.inl ⟨rfl, rfl, h⟩)))))
  · exact own (.inr (.inr (.inr (.inr (.inr (.inl ⟨rfl, .inl rfl, by omega⟩))))))
  · exact own (.inr (.inr (.inr (.inr (.inr (.inr (.inl ⟨rfl, .inl rfl, by omega⟩)))))))
  · exact own (.inr (.inr (.inr (.inr (.inr (.inl ⟨rfl, .inr rfl, by omega⟩))))))
  · exact own (.inr (.inr (.inr (.inr (.inr (.inr (.inl ⟨rfl, .inr rfl, by omega⟩)))))))
  · exact own (.inr (.inr (.inr (.inr (.inr (.inr (.inr (.inl ⟨rfl, rfl, by omega⟩))))))))
  · exact own (.inr (.inr (.inr (.inr (.inr (.inr (.inr (.inr (.inl ⟨rfl, rfl, h⟩)))))))))
  · exact own (.inr (.inr (.inr (.inr (.inr (.inr (.inr (.inr (.inr ⟨rfl, by omega, by omega, h⟩)))))))))

/-! ## What validation finds -/

theorem validate_eq_none {m : Memory} : validate m = none ↔ ∀ code offset, ¬ ImageFault m code offset := by
  have hnone : validate m = none ↔ ∀ c ∈ imageChecks m, ¬ c.fails = true := by
    rw [validate, Option.map_eq_none_iff, List.find?_eq_none]
  rw [hnone]
  constructor
  · intro h code offset hf
    obtain ⟨c, hc, hfails, _⟩ := hf.checkFails
    exact h c hc hfails
  · intro h c hc hfails
    obtain ⟨code, offset, hf, _⟩ := imageFault_of_checkFails ⟨c, hc, hfails, rfl, rfl⟩
    exact h code offset hf

/-- Validation finds the first failing check. -/
theorem validate_eq_some {m : Memory} {code : Byte} {offset : Nat} (h : validate m = some (code, offset)) :
    CheckFails (imageChecks m) code.toNat offset ∧
      ∀ c o, CheckFails (imageChecks m) c o → ReportedBy code.toNat offset c o := by
  obtain ⟨c, hfind, he⟩ := Option.map_eq_some_iff.1 h
  obtain ⟨rfl, rfl⟩ := Prod.mk.inj he
  obtain ⟨hfails, before, after, hlist, hbefore⟩ := List.find?_eq_some_iff_append.1 hfind
  have hsorted := imageChecks_sorted m
  rw [CheckFails, hlist]
  rw [hlist] at hsorted
  refine ⟨⟨c, by simp, hfails, rfl, rfl⟩, ?_⟩
  rintro _ _ ⟨d, hd, hdf, rfl, rfl⟩
  rcases List.mem_append.1 hd with hb | ha
  · have := hbefore d hb
    rw [hdf] at this; cases this
  · rcases List.mem_cons.1 ha with rfl | ha
    · exact .inr ⟨rfl, Nat.le_refl _⟩
    · exact (List.pairwise_cons.1 (List.pairwise_append.1 hsorted).2.1).1 d ha

theorem validate_eq_some_iff {m : Memory} {code : Byte} {offset : Nat} :
    validate m = some (code, offset) ↔ FirstFault m code.toNat offset := by
  constructor
  · intro h
    obtain ⟨hfails, hfirst⟩ := validate_eq_some h
    obtain ⟨c, o, hf, hr⟩ := imageFault_of_checkFails hfails
    obtain ⟨rfl, rfl⟩ := hr.antisymm (hfirst c o hf.checkFails)
    exact ⟨hf, fun c o hc => hfirst c o hc.checkFails⟩
  · rintro ⟨hf, hfirst⟩
    cases hv : validate m with
    | none => exact absurd hf (validate_eq_none.1 hv _ _)
    | some x =>
      obtain ⟨hfails, hleast⟩ := validate_eq_some (code := x.1) (offset := x.2) hv
      obtain ⟨c, o, hc, hr⟩ := imageFault_of_checkFails hfails
      have hback : ReportedBy code.toNat offset x.1.toNat x.2 := ReportedBy.trans (hfirst c o hc) hr
      obtain ⟨hcode, hoffset⟩ := (hleast _ _ hf.checkFails).antisymm hback
      exact congrArg some (Prod.ext (BitVec.eq_of_toNat_eq hcode) hoffset)

/-! ## Loading -/

theorem parentOf_eq_some {b : Byte} {r : PoolNo} : parentOf b = some r ↔ r.val = b.toNat := by
  unfold parentOf
  constructor
  · intro h; split at h <;> cases h; rfl
  · intro h; rw [dif_pos (h ▸ r.isLt)]; exact congrArg some (Fin.ext h.symm)

theorem parentOf_eq_none {b : Byte} : parentOf b = none ↔ 7 < b.toNat := by
  unfold parentOf
  split <;> simp <;> omega

theorem loadPool_undefined {m : Memory} {n : PoolNo} (h : m.read (4 + 8 * n.val) ≠ 0x01) :
    loadPool m n = PoolProfile.undefined := if_neg h

theorem loadPool_defined {m : Memory} {n : PoolNo} (h : m.read (4 + 8 * n.val) = 0x01) :
    loadPool m n =
      { defined := true, parent := parentOf (m.read (5 + 8 * n.val)), nominal := imageWord m (6 + 8 * n.val),
        derated := imageWord m (8 + 8 * n.val), group := groupOf (m.read (10 + 8 * n.val)),
        policy := if m.read (11 + 8 * n.val) = 0x01 then .fit else .ordered } := by
  have at_ (k : Nat) : 4 + 8 * n.val + k = (4 + k) + 8 * n.val := by omega
  simp only [loadPool, h, if_true, at_, Nat.reduceAdd]

/-- What passing validation gives of the record of a pool (R149). -/
structure PoolRecordPasses (m : Memory) (n : PoolNo) : Prop where
  defined_byte : m.read (4 + 8 * n.val) = 0x00 ∨ m.read (4 + 8 * n.val) = 0x01
  parent_byte : m.read (4 + 8 * n.val) = 0x01 → m.read (5 + 8 * n.val) = 0xFF ∨ (m.read (5 + 8 * n.val)).toNat ≤ 7
  parent : m.read (4 + 8 * n.val) = 0x01 → ∀ r : PoolNo, r.val = (m.read (5 + 8 * n.val)).toNat →
    n ≠ r ∧ m.read (4 + 8 * r.val) = 0x01 ∧ m.read (5 + 8 * r.val) = 0xFF
  capacities : m.read (4 + 8 * n.val) = 0x01 → imageWord m (8 + 8 * n.val) ≤ imageWord m (6 + 8 * n.val)
  group_byte : m.read (4 + 8 * n.val) = 0x01 → (m.read (10 + 8 * n.val)).toNat ≤ 2
  policy_byte : m.read (4 + 8 * n.val) = 0x01 → (m.read (11 + 8 * n.val)).toNat ≤ 1

theorem poolRecordPasses {m : Memory} {n : PoolNo} (h : ∀ c o, ¬ PoolFault m n c o) : PoolRecordPasses m n where
  defined_byte := by
    by_contra hc
    rw [not_or] at hc
    exact h _ _ (.inl ⟨rfl, rfl, hc⟩)
  parent_byte hd := by
    by_contra hc
    rw [not_or] at hc
    exact h _ _ (.inr ⟨hd, .inl ⟨rfl, rfl, hc.1, Nat.lt_of_not_le hc.2⟩⟩)
  parent hd r hr := by
    refine ⟨fun e => ?_, ?_, ?_⟩
    · exact h _ _ (.inr ⟨hd, .inr (.inl ⟨rfl, rfl, by rw [← hr, e]⟩)⟩)
    · by_contra hc
      exact h _ _ (.inr ⟨hd, .inr (.inr (.inl ⟨r, hr.symm, .inl ⟨rfl, rfl, hc⟩⟩))⟩)
    · by_contra hc
      exact h _ _ (.inr ⟨hd, .inr (.inr (.inl ⟨r, hr.symm, .inr ⟨rfl, rfl, hc⟩⟩))⟩)
  capacities hd := Nat.le_of_not_lt fun hc => h _ _ (.inr ⟨hd, .inr (.inr (.inr (.inl ⟨rfl, rfl, hc⟩)))⟩)
  group_byte hd := Nat.le_of_not_lt fun hc => h _ _ (.inr ⟨hd, .inr (.inr (.inr (.inr (.inl ⟨rfl, rfl, hc⟩))))⟩)
  policy_byte hd := Nat.le_of_not_lt fun hc => h _ _ (.inr ⟨hd, .inr (.inr (.inr (.inr (.inr ⟨rfl, rfl, hc⟩))))⟩)

/-- A passing pool record loads field by field (R146, R147). -/
theorem PoolRecordPasses.loadsPool {m : Memory} {n : PoolNo} (h : PoolRecordPasses m n) :
    LoadsPool m n (loadPool m n) := by
  have groups : ∀ b : Byte, b.toNat ≤ 2 → (groupOf b = none ↔ b = 0x00) ∧ (groupOf b = some .a ↔ b = 0x01) ∧
      (groupOf b = some .b ↔ b = 0x02) := by decide
  have policies : ∀ b : Byte, b.toNat ≤ 1 →
      ((if b = 0x01 then Policy.fit else .ordered) = .ordered ↔ b = 0x00) ∧
      ((if b = 0x01 then Policy.fit else .ordered) = .fit ↔ b = 0x01) := by decide
  constructor
  · intro h0
    exact loadPool_undefined (by rw [h0]; decide)
  · intro h1
    rw [loadPool_defined h1]
    obtain ⟨hnone, ha, hb⟩ := groups _ (h.group_byte h1)
    obtain ⟨hordered, hfit⟩ := policies _ (h.policy_byte h1)
    refine ⟨rfl, ?_, fun r hr => parentOf_eq_some.1 hr, rfl, rfl, hnone, ha, hb, hordered, hfit⟩
    rw [parentOf_eq_none]
    constructor
    · intro h7; exact (h.parent_byte h1).resolve_right (Nat.not_le.2 h7)
    · intro hff; rw [hff]; decide

/-- The figures that passing pool records load meet law L6, each derated capacity within the nominal one (R3, R149). -/
theorem loadPool_lawful {m : Memory} (h : ∀ n, PoolRecordPasses m n) (n : PoolNo) :
    (loadPool m n).derated ≤ (loadPool m n).nominal ∧ ∀ r ∈ (loadPool m n).parent,
      (loadPool m n).defined ∧ (loadPool m r).defined ∧ (loadPool m r).parent = none ∧ n ≠ r := by
  rcases (h n).defined_byte with h0 | h1
  · rw [loadPool_undefined (by rw [h0]; decide)]
    exact ⟨Nat.le_refl _, fun r hr => nomatch hr⟩
  · rw [loadPool_defined h1]
    refine ⟨(h n).capacities h1, fun r hr => ?_⟩
    obtain ⟨hne, hdef, hroot⟩ := (h n).parent h1 r (parentOf_eq_some.1 hr)
    rw [loadPool_defined hdef]
    exact ⟨rfl, rfl, parentOf_eq_none.2 (by rw [hroot]; decide), hne⟩

theorem loadPort_eq (m : Memory) (p : Port) :
    loadPort m p =
      { priority := ⟨(m.read (68 + 22 * p.val)).toNat % 4, Nat.mod_lt _ (by decide)⟩
        reserve := (m.read (69 + 22 * p.val)).getLsbD 0, interlock := (m.read (69 + 22 * p.val)).getLsbD 1
        supervise := (m.read (69 + 22 * p.val)).getLsbD 2, leaseMin := imageWord m (70 + 22 * p.val)
        leaseMax := imageWord m (72 + 22 * p.val)
        quotas := tabulate 8 fun k => imageWord m (74 + 22 * p.val + 2 * k.val) } := by
  have at_ (k : Nat) : 68 + 22 * p.val + k = (68 + k) + 22 * p.val := by omega
  simp only [loadPort, at_, Nat.reduceAdd]

/-- A port record whose priority passes validation loads field by field (R146, R147). -/
theorem loadsPort {m : Memory} {p : Port} (h : (m.read (68 + 22 * p.val)).toNat ≤ 3) : LoadsPort m p (loadPort m p) := by
  rw [loadPort_eq]
  exact ⟨Nat.mod_eq_of_lt (by omega), rfl, rfl, rfl, rfl, rfl, fun k => State.tabulate_get _ k⟩

/-- An image without a fault loads field by field (R146, R147). -/
theorem loadsImage {m : Memory} (h : ∀ code offset, ¬ ImageFault m code offset) : LoadsImage m (loadProfile m) := by
  refine ⟨rfl, rfl, fun n => ?_, fun p => ?_, rfl, rfl, rfl, rfl, rfl, rfl, beq_iff_eq, fun i => State.tabulate_get _ i⟩
  · show LoadsPool m n (tabulate 8 (loadPool m))[n]
    rw [State.tabulate_get]
    exact (poolRecordPasses fun c o hf => h c o (.inr (.inr (.inl ⟨n, hf⟩)))).loadsPool
  · show LoadsPort m p (tabulate 4 (loadPort m))[p]
    rw [State.tabulate_get]
    exact loadsPort (Nat.le_of_not_lt fun hc => h _ _ (.inr (.inr (.inr (.inl ⟨p, .inl ⟨rfl, rfl, hc⟩⟩)))))

/-- An image without a fault loads a lawful profile, every number in its range (R149). -/
theorem profileInRange {m : Memory} (h : ∀ code offset, ¬ ImageFault m code offset) : ProfileInRange (loadProfile m) := by
  have port (p : Port) (c o : Nat) : ¬ PortFault m p c o := fun hf => h c o (.inr (.inr (.inr (.inl ⟨p, hf⟩))))
  have version : imageWord m 0 ≠ 0 := fun hc => h _ _ (.inl ⟨rfl, rfl, hc⟩)
  have clock : 4000 ≤ imageWord m 2 ∧ imageWord m 2 ≤ 16000 := by
    by_contra hc; exact h _ _ (.inr (.inl ⟨rfl, rfl, hc⟩))
  have tokens : (m.read 156).toNat ≤ 16 :=
    Nat.le_of_not_lt fun hc => h _ _ (.inr (.inr (.inr (.inr (.inl ⟨rfl, rfl, hc⟩)))))
  have qualify (i : Nat) (hi : i = 157 ∨ i = 161) : 1 ≤ imageWord m i ∧ imageWord m i ≤ 1000 := by
    by_contra hc; exact h _ _ (.inr (.inr (.inr (.inr (.inr (.inl ⟨rfl, hi, hc⟩))))))
  have restore (i : Nat) (hi : i = 159 ∨ i = 163) : 10 ≤ imageWord m i ∧ imageWord m i ≤ 60000 := by
    by_contra hc; exact h _ _ (.inr (.inr (.inr (.inr (.inr (.inr (.inl ⟨rfl, hi, hc⟩)))))))
  have audit : 100 ≤ imageWord m 165 ∧ imageWord m 165 ≤ 10000 := by
    by_contra hc; exact h _ _ (.inr (.inr (.inr (.inr (.inr (.inr (.inr (.inl ⟨rfl, rfl, hc⟩))))))))
  refine ⟨Nat.one_le_iff_ne_zero.2 version, clock.1, clock.2, fun n => ?_, fun p => ?_, tokens,
    (qualify 157 (.inl rfl)).1, (qualify 157 (.inl rfl)).2, (restore 159 (.inl rfl)).1, (restore 159 (.inl rfl)).2,
    (qualify 161 (.inr rfl)).1, (qualify 161 (.inr rfl)).2, (restore 163 (.inr rfl)).1, (restore 163 (.inr rfl)).2,
    audit.1, audit.2⟩
  · simp only [loadProfile, State.tabulate_get]
    exact loadPool_lawful (fun k => poolRecordPasses fun c o hf => h c o (.inr (.inr (.inl ⟨k, hf⟩)))) n
  · simp only [loadProfile, State.tabulate_get, loadPort_eq]
    refine ⟨Nat.le_of_not_lt fun hc => ?_, Nat.le_of_not_lt fun hc => ?_, Nat.le_of_not_lt fun hc => ?_⟩
    · exact port p _ _ (.inr (.inr (.inl ⟨rfl, rfl, hc⟩)))
    · exact port p _ _ (.inr (.inr (.inr (.inr ⟨rfl, rfl, hc⟩))))
    · exact port p _ _ (.inr (.inr (.inr (.inl ⟨rfl, rfl, hc⟩))))

/-! ## Classification -/

theorem classify_blank {m : Memory} : classify m = .blank ↔ m.isBlank = true := by
  unfold classify
  split
  · simp_all
  · split <;> simp_all

theorem classify_sealed {m : Memory} : classify m = .sealed ↔ m.isBlank = false ∧
    (m.read 253 = Config.sealMark ∧ imageWord m 254 = (imageCrc m).toNat ∧ validate m = none) := by
  unfold classify
  split
  · simp_all
  · split <;> simp_all

theorem classify_damaged {m : Memory} : classify m = .damaged ↔ m.isBlank = false ∧
    ¬ (m.read 253 = Config.sealMark ∧ imageWord m 254 = (imageCrc m).toNat ∧ validate m = none) := by
  unfold classify
  split
  · simp_all
  · split <;> simp_all

/-- Settles O41: validation's checks stand in the order they are reported in; each fault makes its check fail, and each
failing check finds a fault that is reported no later. -/
theorem validImagesLoadLawfulProfiles : Obligations.ValidImagesLoadLawfulProfiles := by
  intro m
  have hblank : m.isBlank = false ↔ ¬ ∀ a, a < 256 → m.read a = 0xFF := by
    rw [← Memory.isBlank_iff, Bool.not_eq_true]
  refine ⟨fun h => profileInRange (validate_eq_none.1 h), validate_eq_none, fun _ _ => validate_eq_some_iff,
    fun h => loadsImage (validate_eq_none.1 h), fun i => by rw [imageWord, Nat.mul_comm], ?_, ?_, ?_⟩
  · exact classify_blank.trans (Memory.isBlank_iff m)
  · rw [classify_sealed, hblank, validate_eq_none]; rfl
  · rw [classify_damaged, hblank, validate_eq_none]; rfl

end Sys2Proof.Machine
end

section
/-! Proofs, part 5: starts that clear every table, and the profile they load (R150 to R153). -/

namespace Sys2Proof.Machine

namespace State

/-- The highest-numbered SEALED slot (R150). -/
theorem highestSealed_eq_some {s : State} {i : SlotNo} (h : s.highestSealed = some i) :
    (s.imageSlot i).state = .sealed ∧ ∀ j, i < j → (s.imageSlot j).state ≠ .sealed := by
  obtain ⟨hi, before, after, hlist, hbefore⟩ := List.find?_eq_some_iff_append.1 h
  refine ⟨beq_iff_eq.1 hi, fun j hj hs => ?_⟩
  have falling : (List.finRange 4).reverse.Pairwise fun a b => b < a := by decide
  have hmem : j ∈ (List.finRange 4).reverse := List.mem_reverse.2 (List.mem_finRange j)
  rw [hlist] at falling hmem
  rcases List.mem_append.1 hmem with hb | ha
  · simpa [hs] using hbefore j hb
  · rcases List.mem_cons.1 ha with rfl | ha
    · exact absurd hj (Fin.lt_irrefl _)
    · exact absurd ((List.pairwise_cons.1 (List.pairwise_append.1 falling).2.1).1 j ha) (Fin.not_lt.2 (Fin.le_of_lt hj))

theorem highestSealed_eq_none {s : State} (h : s.highestSealed = none) (i : SlotNo) :
    (s.imageSlot i).state ≠ .sealed := by
  have hi := List.find?_eq_none.1 h i (List.mem_reverse.2 (List.mem_finRange i))
  simpa using hi

/-- In commissioning state nothing is loaded (R153). -/
theorem profileToLoad_commissioning {s : State} (h : s.commissioning = true) : s.profileToLoad = Profile.unconfigured :=
  if_pos h

/-- What a start finds in the image slots (R145). -/
theorem imageSlot_beginStart (s : State) (i : SlotNo) :
    s.beginStart.imageSlot i = { s.imageSlot i with state := classify (s.imageSlot i).contents } := tabulate_get _ i

/-- A start outside commissioning state loads the highest slot whose contents are SEALED, or nothing (R150, R151). -/
theorem loadsFrom_profileToLoad {s t : State} (ht : t.slots = s.beginStart.slots) (hc : t.commissioning = false) :
    LoadsFrom s t.profileToLoad := by
  have hslot : ∀ i, t.imageSlot i = { s.imageSlot i with state := classify (s.imageSlot i).contents } := fun i => by
    rw [← imageSlot_beginStart]; simp only [imageSlot, ht]
  have hload : t.profileToLoad = match t.highestSealed with
      | none => Profile.unconfigured
      | some i => loadProfile (t.imageSlot i).contents := if_neg (by rw [hc]; decide)
  rw [hload]
  cases hh : t.highestSealed with
  | none =>
    refine .inl ⟨fun i => ?_, rfl⟩
    have hi := highestSealed_eq_none hh i
    rwa [hslot i] at hi
  | some i =>
    obtain ⟨hi, hlast⟩ := highestSealed_eq_some hh
    refine .inr ⟨i, ?_, fun j hj => ?_, ?_⟩
    · rwa [hslot i] at hi
    · have hj' := hlast j hj
      rwa [hslot j] at hj'
    · simp only [hslot i]

/-- What a cold start's tables hold, whatever the part held before (R20, R37, R64, R79, R115, R133, R137, R172). -/
theorem coldTables_cold (s : State) (kind : StartKind) (x : Profile) : ColdTables (s.coldTables kind x) x := by
  refine ⟨rfl, fun n => ?_, fun i => ?_, rfl, fun w => ?_, fun n => ?_, fun n => ?_, fun p => ?_, fun p => ?_, rfl, rfl,
    rfl, rfl, fun g => ?_, rfl⟩
  · exact tabulate_get _ n
  · exact Vector.getElem_replicate _
  · exact Vector.getElem_replicate _
  · exact Vector.getElem_replicate _
  · exact Vector.getElem_replicate _
  · exact Vector.getElem_replicate _
  · exact Vector.getElem_replicate _
  · cases g <;> rfl

/-- A start that clears the tables, from the state `t` that its first steps made of `s` (R127, R145, R155, R172). -/
theorem clearedStart {s t : State} (kind : StartKind) (x : Profile) (hports : t.ports = s.ports)
    (hslots : t.slots = s.beginStart.slots) (hstaging : t.staging = []) (hsealing : t.sealing = none) :
    FreshPorts s (t.coldTables kind x) ∧ NoWorkWaiting (t.coldTables kind x) ∧ StoreAtStart s (t.coldTables kind x) := by
  have hslot : ∀ i, (t.coldTables kind x).imageSlot i =
      { s.imageSlot i with state := classify (s.imageSlot i).contents } := fun i => by
    rw [← imageSlot_beginStart]
    show t.slots[i] = s.beginStart.slots[i]
    rw [hslots]
  refine ⟨fun q => ?_, ⟨rfl, rfl, rfl, rfl, rfl, rfl⟩, fun i => by rw [hslot i]; exact ⟨rfl, rfl⟩, hstaging, hsealing⟩
  obtain ⟨hfresh, _⟩ := t.discardWork_effect
  refine (hfresh q).trans ?_
  simp only [port, hports]

end State

/-- Settles O54: both starts make the cold tables from the profile the classified slots give. -/
theorem coldAndLostStartsClearTables : Obligations.ColdAndLostStartsClearTables := by
  intro s prog disturbed
  constructor
  · intro hp
    generalize ht : ({ s.beginStart with commissioning := prog == Level.high } : State) = t
    have hslots : t.slots = s.beginStart.slots := by rw [← ht]
    have hcomm : t.commissioning = (prog == Level.high) := by rw [← ht]
    have hexec : exec (.coldStart prog) s = .next (t.coldTables .cold t.profileToLoad) := by
      show execColdStart prog s = _
      rw [execColdStart, if_pos hp, ← ht]; rfl
    obtain ⟨hfresh, hwork, hstore⟩ := State.clearedStart .cold t.profileToLoad (show t.ports = s.ports by rw [← ht]; rfl)
      hslots (by rw [← ht]; rfl) (by rw [← ht]; rfl)
    refine ⟨_, _, hexec, hfresh, hwork, hstore, t.coldTables_cold .cold _, rfl, ?_, fun h => ?_, fun h => ?_⟩
    · show t.commissioning = true ↔ _
      rw [hcomm, beq_iff_eq]
    · exact State.profileToLoad_commissioning (by rw [hcomm, h]; rfl)
    · exact State.loadsFrom_profileToLoad hslots (by rw [hcomm, h]; rfl)
  · intro hp hlost
    generalize ht : s.beginStart = t
    have hslots : t.slots = s.beginStart.slots := by rw [ht]
    have hcomm : t.commissioning = s.commissioning := by rw [← ht]; rfl
    have hexec : exec (.warmStart disturbed) s = .next (t.coldTables .warmLost t.profileToLoad) := by
      show execWarmStart disturbed s = _
      rw [execWarmStart, if_pos hp, State.completeWarmStart, if_neg, ht]
      rintro ⟨hm, hd⟩
      rcases hlost with h | h
      · rw [hm] at h; cases h
      · rw [hd] at h; cases h
    obtain ⟨hfresh, hwork, hstore⟩ := State.clearedStart .warmLost t.profileToLoad
      (show t.ports = s.ports by rw [← ht]; rfl) hslots (by rw [← ht]; rfl) (by rw [← ht]; rfl)
    refine ⟨_, _, hexec, hfresh, hwork, hstore, t.coldTables_cold .warmLost _, rfl, hcomm, fun h => ?_, fun h => ?_⟩
    · exact State.profileToLoad_commissioning (hcomm.trans h)
    · exact State.loadsFrom_profileToLoad hslots (hcomm.trans h)

end Sys2Proof.Machine
end

section
/-! Proofs, part 6: what the steps of the part can do to pools and grants. A property that a rule of charging may claim need
only be kept by the few things listed in `KeptByCore`; then every step keeps it. -/

namespace Sys2Proof.Machine

/-- The pool figures of a profile meet law L6, and every derated capacity is within the nominal one (R3, R4). -/
def LawfulPools (x : Profile) : Prop :=
  ∀ n : PoolNo, x.pools[n].derated ≤ x.pools[n].nominal ∧
    ∀ r ∈ x.pools[n].parent, x.pools[n].defined ∧ x.pools[r].defined ∧ x.pools[r].parent = none ∧ n ≠ r

theorem lawfulPools_unconfigured : LawfulPools Profile.unconfigured := by
  intro n
  have hn : Profile.unconfigured.pools[n] = PoolProfile.undefined := Vector.getElem_replicate _
  rw [hn]
  exact ⟨Nat.le_refl _, fun r hr => nomatch hr⟩

/-- Whatever a start loads has lawful pools: a SEALED slot's contents passed validation (R149, R150). -/
theorem lawfulPools_of_loadsFrom {s : State} {x : Profile} (h : LoadsFrom s x) : LawfulPools x := by
  rcases h with ⟨_, rfl⟩ | ⟨i, hi, _, rfl⟩
  · exact lawfulPools_unconfigured
  · obtain ⟨_, _, _, hvalid⟩ := classify_sealed.1 hi
    obtain ⟨_, _, _, hpools, _⟩ := profileInRange (validate_eq_none.1 hvalid)
    exact hpools

/-- Both figures of a pool are recorded (R13). -/
def State.recordCapacity (s : State) (n : PoolNo) (nominal derated : Nat) : State :=
  s.modPool n fun q => { q with nominal := nominal, derated := derated }

/-- What the steps of the part can do to the pools, the grants, the age list and the profile: nothing that a charge or a
quota sees; create a grant within the available room and the quota room (R27); grow one within both (R30); shrink or free
one (R31, R32); derate a pool and shed it (R86); return a pool to NORMAL (R92); record new capacities without lowering a
DERATED pool, or lower one and shed it (R13 to R17); and clear every table (R20, R37). -/
structure KeptByCore (P : State → Prop) : Prop where
  same : ∀ {s t}, SameAccounts s t → P s → P t
  create : ∀ {s i g}, P s → s.grant? i = none → g.units ≤ s.available g.pool → g.units ≤ s.quotaRoom g.port g.pool →
    P (s.createGrant i g)
  grow : ∀ {s i g v}, P s → s.grant? i = some g → g.units ≤ v → v - g.units ≤ s.available g.pool →
    v - g.units ≤ s.quotaRoom g.port g.pool → P (s.growGrant i g v)
  shrink : ∀ {s i g v}, P s → s.grant? i = some g → v ≤ g.units → P (s.shrinkGrant i g v)
  free : ∀ {s} i, P s → P (s.freeGrant i)
  derate : ∀ {s} n, P s → P (s.deratePool n)
  restore : ∀ {s} n, P s → P (s.modPool n fun q => { q with derateState := .normal })
  capacity : ∀ {s n nominal derated}, P s → derated ≤ nominal →
    ((s.pool n).derateState = .derated → (s.pool n).derated ≤ derated) → P (s.recordCapacity n nominal derated)
  lower : ∀ {s n nominal derated}, P s → derated ≤ nominal → P ((s.recordCapacity n nominal derated).shed n)
  cold : ∀ {s x}, LawfulPools x → ColdTables s x → P s

namespace State

/-! ## What leaves the accounts as they are -/

variable (s : State)

theorem same_modPort (p : Port) (f : PortCtl → PortCtl) : SameAccounts s (s.modPort p f) := .of_tables rfl rfl rfl rfl
theorem same_setSession (p : Port) (x : Session) : SameAccounts s (s.setSession p x) := .of_tables rfl rfl rfl rfl
theorem same_setWatch (p : Port) (m : Word) : SameAccounts s (s.setWatch p m) := .of_tables rfl rfl rfl rfl
theorem same_setMark (n : PoolNo) (b : Bool) : SameAccounts s (s.setMark n b) := .of_tables rfl rfl rfl rfl
theorem same_setImageSlot (i : SlotNo) (x : ImageSlot) : SameAccounts s (s.setImageSlot i x) := .of_tables rfl rfl rfl rfl
theorem same_setWaitSlot (i : WaitNo) (x : WaitSlot) : SameAccounts s (s.setWaitSlot i x) := .of_tables rfl rfl rfl rfl
theorem same_setTokens (m : Word) (x : Token) : SameAccounts s (s.setTokens m x) := .of_tables rfl rfl rfl rfl
theorem same_setLine (g : SagGroup) (x : SagLine) : SameAccounts s (s.setLine g x) := by
  cases g <;> exact .of_tables rfl rfl rfl rfl
theorem same_makeDue (d : Due) : SameAccounts s (s.makeDue d) := .of_tables rfl rfl rfl rfl
theorem same_replyWith (p : Port) (x : Status) (l : List Byte) : SameAccounts s (s.replyWith p x l) :=
  .of_tables rfl rfl rfl rfl
theorem same_refuse (p : Port) (c : Command) (x : Status) : SameAccounts s (s.refuse p c x) := s.same_replyWith p x _
theorem same_placeReply (p : Port) (x : Status) (tag : Byte) (l : List Byte) : SameAccounts s (s.placeReply p x tag l) :=
  s.same_modPort p _

theorem same_queue (n : PoolNo) (f : Pool → List WaitNo) :
    SameAccounts s (s.modPool n fun q => { q with queue := f q }) :=
  ⟨fun m => by
    rw [pool_modPool]
    split
    · rename_i h; rw [h]
    · rfl, fun _ => rfl, rfl, rfl⟩

theorem same_removeRecord (w : WaitNo) : SameAccounts s (s.removeRecord w) := by
  unfold removeRecord
  split
  · exact .refl s
  · exact (s.same_setWaitSlot w _).trans (same_queue _ _ _)

theorem same_queueRecord (w : WaitNo) (r : WaitRecord) : SameAccounts s (s.queueRecord w r) :=
  (s.same_setWaitSlot w _).trans (same_queue _ _ _)

theorem same_freeTokens (m : Word) : SameAccounts s (s.freeTokens m) := by
  obtain ⟨_, _, _, h⟩ := s.freeTokens_effect m
  rw [h]; exact .of_tables rfl rfl rfl rfl

theorem same_detachBare : SameAccounts s s.detachBare := by
  refine .foldl (fun t p => ?_) _ s
  unfold detachIfBare
  split
  · exact t.same_setSession p _
  · exact .refl t

theorem same_closeIfDone : SameAccounts s s.closeIfDone := by
  unfold closeIfDone
  split
  · exact .of_tables rfl rfl rfl rfl
  · exact .refl s

theorem same_runDue (d : Due) : SameAccounts s (s.runDue d) := by
  rw [runDue_frame]; exact .of_tables rfl rfl rfl rfl

/-- A work item begins with what was due and what the item before left (log entries 5 and 6): none of it is charged. -/
theorem same_settle : SameAccounts s s.settle := by
  rw [settle_frame]; exact .of_tables rfl rfl rfl rfl

theorem same_deliverPosts : SameAccounts s s.deliverPosts := by
  rw [deliverPosts_frame]; exact .of_tables rfl rfl rfl rfl

theorem same_placeAnswer : SameAccounts s s.placeAnswer := by
  rw [placeAnswer_frame]; exact .of_tables rfl rfl rfl rfl

theorem same_ready : SameAccounts s s.ready :=
  (s.same_settle.trans s.settle.same_deliverPosts).trans s.settle.deliverPosts.same_placeAnswer

theorem same_took (p : Port) : SameAccounts s (s.took p) := .of_tables rfl rfl rfl rfl

/-- A CNF changes a grant's state alone. -/
theorem same_confirm {i : GrantNo} {g : Grant} (hg : s.grant? i = some g) (x : GrantState) :
    SameAccounts s (s.putGrant i { g with state := x }) :=
  ⟨fun _ => rfl, fun j => by
    rw [grant?_putGrant]
    split
    · rename_i h; rw [h, hg]; rfl
    · rfl, rfl, rfl⟩

theorem same_abortSeal (cut : SealCut) : SameAccounts s (s.abortSeal cut) := by
  unfold abortSeal
  split
  · exact .refl s
  · exact .of_tables rfl rfl rfl rfl

theorem same_discardWork : SameAccounts s s.discardWork := .of_tables rfl rfl rfl rfl

theorem same_grantsToAudit : SameAccounts s s.grantsToAudit :=
  ⟨fun _ => rfl, fun i => by
    have hi : s.grantsToAudit.grantSlot i =
      { s.grantSlot i with grant := (s.grant? i).map fun g => { g with state := .audit } } := tabulate_get _ i
    rw [grant?, hi, Option.map_map]; rfl, rfl, rfl⟩

theorem same_discardRecords : SameAccounts s s.discardRecords :=
  ⟨fun n => by
    have hn : s.discardRecords.pool n = { s.pool n with queue := [] } := tabulate_get _ n
    rw [hn], fun _ => rfl, rfl, rfl⟩

/-- A warm start with a good signature empties the queues and makes every grant AUDIT (R38, R65). -/
theorem same_warmTables : SameAccounts s s.warmTables := by
  have grants := s.discardWork.same_grantsToAudit
  have tokens : SameAccounts s.discardWork.grantsToAudit s.discardWork.grantsToAudit.tokensToAudit :=
    .of_tables rfl rfl rfl rfl
  have records := s.discardWork.grantsToAudit.tokensToAudit.same_discardRecords
  have tables := s.same_discardWork.trans (grants.trans (tokens.trans records))
  unfold warmTables
  dsimp only
  generalize s.discardWork.grantsToAudit.tokensToAudit.discardRecords = t at tables ⊢
  exact tables.trans (.of_tables rfl rfl rfl rfl)

theorem same_disturb (d : Disturbance) : SameAccounts s (s.disturb d) := s.same_setImageSlot _ _

theorem same_tickLease (p : Port) : SameAccounts s (s.tickLease p) := by
  unfold tickLease
  split
  · dsimp only
    split
    · exact (s.same_modPort p _).trans (same_makeDue _ _)
    · exact s.same_modPort p _
  · exact .refl s

theorem same_tickDeadline (w : WaitNo) : SameAccounts s (s.tickDeadline w) := by
  unfold tickDeadline
  split
  · exact .refl s
  · split
    · dsimp only
      split
      · exact (s.same_setWaitSlot w _).trans (same_makeDue _ _)
      · exact s.same_setWaitSlot w _
    · exact .refl s

theorem same_tickLine (level : Level) (g : SagGroup) : SameAccounts s (tickLine level s g) := by
  unfold tickLine
  split
  · exact s.same_setLine g _
  · split
    · exact (s.same_setLine g _).trans (same_makeDue _ _)
    · split
      · dsimp only
        split
        · exact (s.same_setLine g _).trans (same_makeDue _ _)
        · exact s.same_setLine g _
      · exact .refl s

theorem same_tickLines (a b : Level) : SameAccounts s (s.tickLines a b) := by
  unfold tickLines
  split
  · exact .refl s
  · exact (s.same_tickLine a .a).trans (same_tickLine _ b .b)

theorem same_tickWindow : SameAccounts s s.tickWindow := by
  unfold tickWindow
  split
  · split
    · dsimp only
      split
      · exact .of_tables rfl rfl rfl rfl
      · exact .of_tables rfl rfl rfl rfl
    · exact .refl s
  · exact .refl s

/-- Time charges nothing and frees nothing (R152). -/
theorem same_tickAll (a b : Level) : SameAccounts s (s.tickAll a b) := by
  have leases := SameAccounts.foldl same_tickLease (List.finRange 4) s.settle
  have deadlines := SameAccounts.foldl same_tickDeadline (List.finRange 32) ((List.finRange 4).foldl tickLease s.settle)
  unfold tickAll
  dsimp only
  generalize (List.finRange 4).foldl tickLease s.settle = t at leases deadlines ⊢
  generalize (List.finRange 32).foldl tickDeadline t = u at deadlines ⊢
  exact (((s.same_settle.trans leases).trans deadlines).trans (u.same_tickLines a b)).trans (same_tickWindow _)

end State

end Sys2Proof.Machine
end

section
/-! Proofs, part 7: every step keeps what the few things of `KeptByCore` keep. -/

namespace Sys2Proof.Machine

/-- Whatever next state a step answers, `Q` holds of it. -/
def Answers (Q : State → Prop) (o : Result) : Prop := ∀ t, o = .next t → Q t

theorem Answers.next {Q : State → Prop} {t : State} (h : Q t) : Answers Q (.next t) := by
  rintro u ⟨⟩; exact h

theorem Answers.mono {Q R : State → Prop} {o : Result} (h : Answers Q o) (hqr : ∀ t, Q t → R t) : Answers R o :=
  fun t ht => hqr t (h t ht)

/-! ## Steps that leave the accounts as they are -/

namespace State

variable (s : State)

theorem same_closeTransaction (p : Port) (l : List Byte) : SameAccounts s (s.closeTransaction p l) := s.same_modPort p _

theorem same_reloadLease (p : Port) : SameAccounts s (s.reloadLease p) := .of_tables rfl rfl rfl rfl

theorem same_takeNop (p : Port) (tag : Byte) : SameAccounts s (s.takeNop p tag) := by
  refine (s.same_reloadLease p).trans ?_
  unfold takeNop
  dsimp only
  split <;> exact same_placeReply _ _ _ _ _

theorem same_takeRpt (p : Port) (tag : Byte) : SameAccounts s (s.takeRpt p tag) := by
  refine (s.same_reloadLease p).trans ?_
  unfold takeRpt
  dsimp only
  split
  · exact same_placeReply _ _ _ _ _
  · split <;> exact same_placeReply _ _ _ _ _

theorem same_takeNtf (p : Port) (tag : Byte) : SameAccounts s (s.takeNtf p tag) := by
  refine (s.same_reloadLease p).trans ?_
  unfold takeNtf
  dsimp only
  split
  · exact same_placeReply _ _ _ _ _
  · split
    · exact same_placeReply _ _ _ _ _
    · exact (same_modPort _ p _).trans (same_placeReply _ _ _ _ _)

theorem same_takeRequest (p : Port) (r : Request) : SameAccounts s (s.takeRequest p r) := by
  refine (s.same_reloadLease p).trans ?_
  unfold takeRequest
  dsimp only
  split
  · exact same_placeReply _ _ _ _ _
  · exact same_modPort _ p _

end State

/-- A CSN rise leaves the accounts as they are if its row's action does. -/
theorem csnRise_same {s : State} {p : Port} {mosi : List Byte} {act : State → State}
    (h : ∀ t, SameAccounts t (act t)) : Answers (SameAccounts s) (csnRise s p mosi act) := by
  rcases csnRise_next s p mosi act with he | ⟨t, ⟨x, _, _, ht⟩, he⟩
  · rw [he]; exact .next (.refl s)
  · rw [he]
    exact .next ((ht ▸ s.same_modPort p _ : SameAccounts s t).trans (h t))

theorem dueStep_same (s : State) (d : Due) : Answers (SameAccounts s) (dueStep s d) := by
  rw [dueStep_next]
  refine .next ?_
  split
  · have hdue : SameAccounts s { s with due := s.due.erase d } := .of_tables rfl rfl rfl rfl
    exact hdue.trans (State.same_runDue _ d)
  · exact .refl s

section
variable (s : State) (p : Port)

theorem execNop_same (mosi : List Byte) : Answers (SameAccounts s) (execNop p mosi s) := by
  unfold execNop
  split
  · exact csnRise_same fun t => t.same_takeNop p _
  · exact .next (.refl s)

theorem execRpt_same (mosi : List Byte) : Answers (SameAccounts s) (execRpt p mosi s) := by
  unfold execRpt
  split
  · exact csnRise_same fun t => t.same_takeRpt p _
  · exact .next (.refl s)

theorem execNtf_same (mosi : List Byte) : Answers (SameAccounts s) (execNtf p mosi s) := by
  unfold execNtf
  split
  · exact csnRise_same fun t => t.same_takeNtf p _
  · exact .next (.refl s)

theorem execRequestTaken_same (mosi : List Byte) : Answers (SameAccounts s) (execRequestTaken p mosi s) := by
  unfold execRequestTaken
  split
  · exact csnRise_same fun t => t.same_takeRequest p _
  · exact .next (.refl s)

theorem execFrameError_same (mosi : List Byte) : Answers (SameAccounts s) (execFrameError p mosi s) := by
  unfold execFrameError
  split
  · exact csnRise_same fun t => t.same_placeReply p _ _ _
  · exact .next (.refl s)

theorem execUnknown_same (mosi : List Byte) : Answers (SameAccounts s) (execUnknown p mosi s) := by
  unfold execUnknown
  split
  · exact csnRise_same fun t => t.same_placeReply p _ _ _
  · exact .next (.refl s)

theorem execFill_same (mosi : List Byte) : Answers (SameAccounts s) (execFill p mosi s) := by
  unfold execFill
  split
  · exact csnRise_same .refl
  · exact csnRise_same .refl
  · exact .next (.refl s)

theorem execCsnFall_same : Answers (SameAccounts s) (execCsnFall p s) := by
  unfold execCsnFall
  split
  · exact .next (.refl s)
  · exact .next (s.same_modPort p _)

theorem execPending_same (mosi : List Byte) : Answers (SameAccounts s) (execPending p mosi s) := by
  unfold execPending
  split
  · exact .next (.refl s)
  · split
    · exact .next (s.same_closeTransaction p _)
    · exact .next (.refl s)

theorem execNotReady_same (mosi : List Byte) (before : Nat) :
    Answers (SameAccounts s) (execNotReady p mosi before s) := by
  unfold execNotReady
  split
  · exact .next (.refl s)
  · split
    · exact .next (s.same_closeTransaction p _)
    · exact .next (s.same_closeTransaction p _)
    · exact .next (.refl s)
    · exact .next (.refl s)
    · exact .next (.refl s)

theorem execReplyPlaced_same : Answers (SameAccounts s) (execReplyPlaced p s) := by
  unfold execReplyPlaced
  split
  · exact .next (.refl s)
  · split
    · exact .next (s.same_deliverPosts.trans s.deliverPosts.same_placeAnswer)
    · exact .next (.refl s)

theorem execNoticePost_same : Answers (SameAccounts s) (execNoticePost p s) := by
  unfold execNoticePost
  split
  · exact .next (.refl s)
  · split
    · exact .next (.of_tables rfl rfl rfl rfl)
    · exact .next (.refl s)

end

theorem execSealEnd_same (s : State) (result : SealResult) : Answers (SameAccounts s) (execSealEnd result s) := by
  unfold execSealEnd
  split
  · exact .next (.refl s)
  · split
    · split
      · exact .next (.refl s)
      · exact .next (.of_tables rfl rfl rfl rfl)
    · exact .next (.refl s)

theorem execTick_same (s : State) (lines : SagLevels) (disturbed : List Disturbance) :
    Answers (SameAccounts s) (execTick lines disturbed s) := by
  unfold execTick
  split
  · exact .next ((s.same_tickAll _ _).trans (.foldl State.same_disturb _ _))
  · exact .next (.refl s)

theorem execRstnLow_same (s : State) : Answers (SameAccounts s) (execRstnLow s) := by
  unfold execRstnLow
  split
  · exact .next (.refl s)
  · refine .next ?_
    unfold State.rstnFalls
    dsimp only
    split <;> exact .of_tables rfl rfl rfl rfl

/-- The warm reset discards untaken work and leaves the tables (R129). -/
theorem execWarmReset_same (s : State) (cut : SealCut) : Answers (SameAccounts s) (execWarmReset cut s) := by
  unfold execWarmReset
  split
  · have hcut := s.same_abortSeal cut
    unfold State.takeReset
    generalize s.abortSeal cut = t at hcut ⊢
    exact .next (hcut.trans (.of_tables rfl rfl rfl rfl))
  · exact .next (.refl s)

theorem execRstnHigh_same (s : State) : Answers (SameAccounts s) (execRstnHigh s) := by
  refine .next ?_
  unfold State.rstnRises
  dsimp only
  split <;> exact .of_tables rfl rfl rfl rfl

theorem execPowerOn_same (s : State) : Answers (SameAccounts s) (execPowerOn s) := by
  unfold execPowerOn
  split
  · exact .next (.of_tables rfl rfl rfl rfl)
  · exact .next (.refl s)

theorem execPowerInterruption_same (s : State) (cut : SealCut) :
    Answers (SameAccounts s) (execPowerInterruption cut s) := by
  unfold execPowerInterruption
  split
  · exact .next (.refl s)
  · have hcut := s.same_abortSeal cut
    unfold State.losePower
    generalize s.abortSeal cut = t at hcut ⊢
    exact .next (hcut.trans (.of_tables rfl rfl rfl rfl))

/-! ## Requests that leave the accounts as they are -/

namespace State

variable (s : State) (p : Port)

theorem same_refuseForQuota (w : WaitNo) (r : WaitRecord) : SameAccounts s (s.refuseForQuota w r) :=
  (s.same_removeRecord w).trans (same_post _ _ _)

/-- A pass's grant is a creation; the rest of it leaves the accounts as they are (R55). -/
theorem same_grantRecord (w : WaitNo) (r : WaitRecord) (i : GrantNo) (units : Nat) :
    SameAccounts (s.createGrant i { state := .active, port := r.port, pool := r.pool, units := units, floor := r.floor })
      (s.grantRecord w r i units) :=
  (same_removeRecord _ w).trans (same_post _ _ _)

theorem same_answerAtt (lease : Word) : SameAccounts s (s.answerAtt p lease) := by
  unfold answerAtt
  split
  · exact s.same_refuse p _ _
  · exact ((s.same_setSession p _).trans (same_modPort _ p _)).trans (same_replyWith _ p _ _)

theorem same_queueRsv (tag pool : Byte) (n : PoolNo) (floor max wait : Word) :
    SameAccounts s (s.queueRsv p tag pool n floor max wait) := by
  unfold queueRsv
  split
  · exact s.same_refuse p _ _
  · split
    · exact s.same_refuse p _ _
    · rename_i w _ _
      refine ((s.same_queueRecord w (s.recordOf p tag n floor max wait)).trans ?_).trans (same_replyWith _ p _ _)
      unfold markIfFull
      split
      · exact same_setMark _ _ _
      · exact .refl _

theorem same_answerQgr (handle : Word) : SameAccounts s (s.answerQgr p handle) := by
  unfold answerQgr
  split
  · exact s.same_refuse p _ _
  · exact s.same_replyWith p _ _

theorem same_answerQpl (pool : Byte) : SameAccounts s (s.answerQpl p pool) := by
  unfold answerQpl
  split
  · exact s.same_refuse p _ _
  · exact s.same_replyWith p _ _

theorem same_answerQpt : SameAccounts s (s.answerQpt p) := (s.same_modPort p _).trans (same_replyWith _ p _ _)

theorem same_answerClm (mask : Word) (mode watch : Byte) : SameAccounts s (s.answerClm p mask mode watch) := by
  unfold answerClm
  split
  · exact s.same_refuse p _ _
  · exact ((s.same_setTokens _ _).trans (same_setWatch _ p _)).trans (same_replyWith _ p _ _)

theorem same_answerDrp (mask : Word) : SameAccounts s (s.answerDrp p mask) := by
  unfold answerDrp
  split
  · exact s.same_refuse p _ _
  · exact ((s.same_freeTokens _).trans (same_closeIfDone _)).trans (same_replyWith _ p _ _)

theorem same_answerCnt (mask : Word) : SameAccounts s (s.answerCnt p mask) := by
  unfold answerCnt
  split
  · exact s.same_refuse p _ _
  · exact (((s.same_setTokens _ _).trans (same_setWatch _ p _)).trans (same_closeIfDone _)).trans (same_replyWith _ p _ _)

theorem same_answerUwt (mask : Word) : SameAccounts s (s.answerUwt p mask) := by
  unfold answerUwt
  split
  · exact s.same_refuse p _ _
  · exact (s.same_setWatch p _).trans (same_replyWith _ p _ _)

theorem same_answerRsr : SameAccounts s (s.answerRsr p) := by
  unfold answerRsr
  split
  · exact s.same_refuse p _ _
  · exact .of_tables rfl rfl rfl rfl

theorem same_inStore (c : Command) {effect : State → State} (h : ∀ t, SameAccounts t (effect t)) :
    SameAccounts s (s.inStore p c effect) := by
  unfold inStore
  split
  · exact h s
  · exact s.same_refuse p c _

theorem same_answerSrd (slot block : Byte) : SameAccounts s (s.answerSrd p slot block) := by
  unfold answerSrd
  split
  · exact s.same_refuse p _ _
  · split
    · exact s.same_refuse p _ _
    · exact s.same_replyWith p _ _

theorem same_answerStg (block : Byte) (data : List Byte) : SameAccounts s (s.answerStg p block data) := by
  unfold answerStg
  split
  · exact s.same_refuse p _ _
  · exact .of_tables rfl rfl rfl rfl

theorem same_answerChk : SameAccounts s (s.answerChk p) := by
  unfold answerChk
  split <;> exact s.same_replyWith p _ _

theorem same_answerSel : SameAccounts s (s.answerSel p) := by
  unfold answerSel
  split
  · exact s.same_replyWith p _ _
  · split
    · exact s.same_refuse p _ _
    · exact .of_tables rfl rfl rfl rfl

end State

/-! ## Requests and events that charge or free -/

theorem firstFailure_none {l : List (Bool × Status)} (h : firstFailure l = none) : ∀ x ∈ l, x.1 = true := by
  induction l with
  | nil => intro x hx; cases hx
  | cons c rest ih =>
    rw [firstFailure_cons] at h
    split at h
    · rename_i hc
      rintro x (_ | ⟨_, hx⟩)
      · exact hc
      · exact ih h x hx
    · cases h

theorem foldl_keeps {P : State → Prop} {α : Type} {f : State → α → State} (hf : ∀ s x, P s → P (f s x)) (l : List α)
    {s : State} (hs : P s) : P (l.foldl f s) := by
  induction l generalizing s with
  | nil => exact hs
  | cons x rest ih => exact ih (hf s x hs)

namespace KeptByCore

variable {P : State → Prop} (h : KeptByCore P) {s : State}
include h

theorem servicePass (roots : List PoolNo) (hs : P s) : P (s.servicePass roots) := by
  refine State.servicePass_induct ?_ ?_ ?_ s roots hs
  · exact fun t n b ht => h.same (t.same_setMark n b) ht
  · exact fun t w r ht _ _ => h.same (t.same_refuseForQuota w r) ht
  · intro t w r i ht _ _ hi _
    refine h.same (t.same_grantRecord w r i _) (h.create ht (State.freeGrantSlot_eq_some.1 hi).1 ?_ ?_)
    · exact Nat.le_trans (Nat.min_le_right _ _) (Nat.min_le_left _ _)
    · exact Nat.le_trans (Nat.min_le_right _ _) (Nat.min_le_right _ _)

/-- What a lapse and a detachment free (R108, R111). -/
theorem releaseHoldings (p : Port) (hs : P s) : P (s.releaseHoldings p) := by
  have records := SameAccounts.foldl State.same_removeRecord ((s.setWatch p 0).recordsOf p) (s.setWatch p 0)
  have start := h.same records (h.same (s.same_setWatch p 0) hs)
  unfold State.releaseHoldings
  dsimp only
  generalize List.foldl State.removeRecord (s.setWatch p 0) _ = t at start ⊢
  exact h.same (State.same_freeTokens _ _) (foldl_keeps (fun _ i ht => h.free i ht) (t.grantsOf p) start)

theorem lapseSession (p : Port) (cause : LapseCause) (hs : P s) : P (s.lapseSession p cause) :=
  h.servicePass _ <| h.same (State.same_closeIfDone _) <| h.same (State.same_post _ _ _) <|
    h.same (State.same_modPort _ p _) <| h.same (State.same_setSession _ p _) <| h.releaseHoldings p hs

theorem detachSession (p : Port) (hs : P s) : P (s.detachSession p) :=
  h.servicePass _ <| h.same (State.same_closeIfDone _) <| h.same (State.same_modPort _ p _) <|
    h.same (State.same_setSession _ p _) <| h.releaseHoldings p hs

theorem freeAndServe (i : GrantNo) (g : Grant) {told : State → State} (ht : ∀ t, SameAccounts t (told t)) (hs : P s) :
    P (s.freeAndServe i g told) :=
  h.servicePass _ <| h.same (State.same_closeIfDone _) <| h.same (ht _) <| h.free i hs

theorem endRecord (w : WaitNo) (r : WaitRecord) {told : State → State} (ht : ∀ t, SameAccounts t (told t)) (hs : P s) :
    P (s.endRecord w r told) := by
  have ended : P (told (s.removeRecord w)) := h.same (ht _) (h.same (s.same_removeRecord w) hs)
  unfold State.endRecord
  dsimp only
  split
  · exact h.servicePass _ ended
  · exact ended

theorem decideRsv (p : Port) (tag pool : Byte) (n : PoolNo) (floor max wait : Word) (hs : P s) :
    P (s.decideRsv p tag pool n floor max wait) := by
  have queued := h.same (s.same_queueRsv p tag pool n floor max wait) hs
  unfold State.decideRsv
  dsimp only
  split
  · rename_i i hi
    split
    · refine h.same (State.same_replyWith _ p _ _) (h.create hs (State.freeGrantSlot_eq_some.1 hi).1 ?_ ?_)
      · exact Nat.le_trans (Nat.min_le_right _ _) (Nat.min_le_left _ _)
      · exact Nat.le_trans (Nat.min_le_right _ _) (Nat.min_le_right _ _)
    · split
      · exact h.same (s.same_refuse p _ _) hs
      · exact queued
  · split
    · exact h.same (s.same_refuse p _ _) hs
    · exact queued

theorem answerRsv (p : Port) (tag pool : Byte) (floor max wait : Word) (hs : P s) :
    P (s.answerRsv p tag pool floor max wait) := by
  have refused (c : Command) (x : Status) := h.same (s.same_refuse p c x) hs
  unfold State.answerRsv
  dsimp only
  split
  · exact refused _ _
  · split
    · exact refused _ _
    · split
      · exact refused _ _
      · exact h.decideRsv p tag pool _ floor max wait hs

theorem answerAdj (p : Port) (handle units : Word) (hs : P s) : P (s.answerAdj p handle units) := by
  have refused (c : Command) (x : Status) := h.same (s.same_refuse p c x) hs
  have reply {t : State} (x : Status) (l : List Byte) (ht : P t) := h.same (t.same_replyWith p x l) ht
  unfold State.answerAdj
  dsimp only
  split
  · exact refused _ _
  · split
    · exact refused _ _
    · rename_i i g hown
      obtain ⟨⟨hg, _, _⟩, rfl⟩ := State.ownGrant_eq_some.1 hown
      split
      · exact refused _ _
      · unfold State.adjustGrant
        split
        · exact reply _ _ hs
        · split
          · rename_i hlt
            exact reply _ _ (h.servicePass _ (h.shrink hs hg (Nat.le_of_lt hlt)))
          · rename_i hne hge
            split
            · exact refused _ _
            · rename_i hpass
              have hroom := firstFailure_none hpass _ List.mem_cons_self
              have hquota := firstFailure_none hpass _ (List.mem_cons_of_mem _ List.mem_cons_self)
              exact reply _ _ (h.grow hs hg (Nat.le_of_not_lt hge) (of_decide_eq_true hroom) (of_decide_eq_true hquota))

theorem answerRel (p : Port) (handle : Word) (hs : P s) : P (s.answerRel p handle) := by
  unfold State.answerRel
  split
  · exact h.same (s.same_refuse p _ _) hs
  · exact h.same (State.same_replyWith _ p _ _) (h.freeAndServe _ _ .refl hs)

theorem answerCan (p : Port) (ticket : Word) (hs : P s) : P (s.answerCan p ticket) := by
  unfold State.answerCan
  split
  · exact h.same (s.same_refuse p _ _) hs
  · exact h.same (State.same_replyWith _ p _ _) (h.endRecord _ _ .refl hs)

theorem answerCnf (p : Port) (handle : Word) (hs : P s) : P (s.answerCnf p handle) := by
  unfold State.answerCnf
  dsimp only
  split
  · exact h.same (s.same_refuse p _ _) hs
  · rename_i i g hown
    obtain ⟨⟨hg, _, _⟩, _⟩ := State.ownGrant_eq_some.1 hown
    split
    · exact h.same (s.same_refuse p _ _) hs
    · exact h.same (((s.same_confirm hg _).trans (State.same_closeIfDone _)).trans (State.same_replyWith _ p _ _)) hs

theorem answerEvc (p : Port) (target : Byte) (hs : P s) : P (s.answerEvc p target) := by
  have refused (c : Command) (x : Status) := h.same (s.same_refuse p c x) hs
  unfold State.answerEvc
  dsimp only
  split
  · exact refused _ _
  · split
    · exact refused _ _
    · split
      · exact refused _ _
      · split
        · exact refused _ _
        · exact refused _ _
        · exact h.same (State.same_replyWith _ p _ _) (h.lapseSession _ _ hs)
        · exact h.same (State.same_replyWith _ p _ _) (h.lapseSession _ _ hs)

theorem answerRvk (p : Port) (handle : Word) (hs : P s) : P (s.answerRvk p handle) := by
  unfold State.answerRvk
  dsimp only
  split
  · exact h.same (s.same_refuse p _ _) hs
  · split
    · exact h.same (s.same_refuse p _ _) hs
    · refine h.same (State.same_replyWith _ p _ _) (h.freeAndServe _ _ (fun t => ?_) hs)
      unfold State.tellRevoked
      split
      · exact t.same_detachBare
      · exact (t.same_post _ _).trans (State.same_detachBare _)

/-- The four consequences of a capacity change (R14 to R17). -/
theorem changeCapacity (n : PoolNo) {nominal derated : Nat} (hle : derated ≤ nominal) (hs : P s) :
    P (s.changeCapacity n nominal derated) := by
  have hpool : (s.recordCapacity n nominal derated).pool n =
      { s.pool n with nominal := nominal, derated := derated } := by
    rw [State.recordCapacity, State.pool_modPool, if_pos rfl]
  unfold State.changeCapacity
  dsimp only
  rw [← State.recordCapacity, hpool]
  split
  · rename_i hraise
    refine h.servicePass _ (h.capacity hs hle fun hd => ?_)
    simp only [Pool.effective, hd] at hraise
    exact Nat.le_of_lt hraise
  · split
    · split
      · rename_i hd
        exact h.capacity hs hle fun hd' => absurd (hd.symm.trans hd') (by decide)
      · exact h.same ((State.same_detachBare _).trans (State.same_closeIfDone _)) (h.lower hs hle)
    · rename_i hraise hlower
      refine h.capacity hs hle fun hd => ?_
      simp only [Pool.effective, hd] at hlower
      exact Nat.le_of_not_lt hlower

theorem answerScp (p : Port) (pool : Byte) (nominal derated : Word) (hs : P s) :
    P (s.answerScp p pool nominal derated) := by
  have refused (c : Command) (x : Status) := h.same (s.same_refuse p c x) hs
  unfold State.answerScp
  dsimp only
  split
  · exact refused _ _
  · split
    · exact refused _ _
    · split
      · exact refused _ _
      · rename_i hle
        exact h.same (State.same_replyWith _ p _ _) (h.changeCapacity _ (Nat.le_of_not_lt hle) hs)

/-! ## Events -/

theorem takeExpiry (ticket : Nat) {t : State} (hs : P s) (ht : s.takeExpiry ticket = some t) : P t := by
  have taken : P { s with expiryEvents := s.expiryEvents.erase ticket } := h.same (s := s) (.of_tables rfl rfl rfl rfl) hs
  unfold State.takeExpiry at ht
  dsimp only at ht
  split at ht
  · split at ht
    · cases ht; exact taken
    · split at ht
      · cases ht; exact h.endRecord _ _ (fun u => u.same_post _ _) taken
      · cases ht; exact taken
  · cases ht

theorem takeSagEvent (e : SagEvent) {effect : State → State} (he : ∀ u, P u → P (effect u)) {t : State} (hs : P s)
    (ht : s.takeSagEvent e effect = some t) : P t := by
  unfold State.takeSagEvent at ht
  split at ht
  · cases ht
    exact he _ (h.same (s := s) (.of_tables rfl rfl rfl rfl) hs)
  · cases ht

theorem takeLapse (p : Port) {t : State} (hs : P s) (ht : s.takeLapse p = some t) : P t := by
  have taken (l : List HandedOn) := h.same (s.same_modPort p fun c => { c with handedOn := l }) hs
  unfold State.takeLapse at ht
  split at ht
  · dsimp only at ht
    split at ht
    · cases ht; exact h.lapseSession p _ (taken _)
    · cases ht; exact taken _
  · cases ht
  · cases ht

theorem derateGroup (g : SagGroup) (hs : P s) : P (s.derate g) :=
  h.same ((State.same_detachBare _).trans (State.same_closeIfDone _)) (foldl_keeps (fun _ n ht => h.derate n ht) _ hs)

theorem restoreGroup (g : SagGroup) (hs : P s) : P (s.restore g) :=
  h.servicePass _ (foldl_keeps (fun _ n ht => h.restore n ht) _ hs)

theorem reclaimGrant (i : GrantNo) (hs : P s) : P (s.reclaimGrant i) := by
  unfold State.reclaimGrant
  split
  · exact hs
  · split
    · exact h.same (State.same_post _ _ _) (h.free i hs)
    · exact h.free i hs

theorem reclaimAudit (hs : P s) : P s.reclaimAudit := by
  have reclaimed := foldl_keeps (fun _ i ht => h.reclaimGrant i ht) (s.ageList.filter s.isAudit) hs
  unfold State.reclaimAudit
  dsimp only
  generalize List.foldl State.reclaimGrant s _ = t at reclaimed ⊢
  have freed := h.same (t.same_freeTokens t.allAuditMask) reclaimed
  refine h.servicePass _ (foldl_keeps (fun u p hu => ?_) _
    (h.same (s := t.freeTokens t.allAuditMask) (.of_tables rfl rfl rfl rfl) freed))
  unfold State.endRecovery
  split
  · exact h.same (u.same_setSession p _) hu
  · exact hu

theorem takeAuditEnd {t : State} (hs : P s) (ht : s.takeAuditEnd = some t) : P t := by
  have taken : P { s with auditEndMade := false } := h.same (s := s) (.of_tables rfl rfl rfl rfl) hs
  unfold State.takeAuditEnd at ht
  dsimp only at ht
  split at ht
  · cases ht
    split
    · exact h.reclaimAudit taken
    · exact taken
  · cases ht

/-! ## Starts -/

theorem completeWarmStart (disturbed : Bool) (hs : P s) : P (s.completeWarmStart disturbed) := by
  unfold State.completeWarmStart
  dsimp only
  split
  · exact h.same (State.same_warmTables _) (h.same (s := s) (.of_tables rfl rfl rfl rfl) hs)
  · refine h.cold ?_ (State.coldTables_cold _ _ _)
    cases hc : s.beginStart.commissioning with
    | true => rw [State.profileToLoad_commissioning hc]; exact lawfulPools_unconfigured
    | false => exact lawfulPools_of_loadsFrom (State.loadsFrom_profileToLoad rfl hc)

theorem completeColdStart (prog : Level) : P (s.completeColdStart prog) := by
  unfold State.completeColdStart
  dsimp only
  refine h.cold ?_ (State.coldTables_cold _ _ _)
  cases hc : prog == Level.high with
  | true => rw [State.profileToLoad_commissioning rfl]; exact lawfulPools_unconfigured
  | false => exact lawfulPools_of_loadsFrom (s := s) (State.loadsFrom_profileToLoad rfl rfl)

/-! ## Every step -/

theorem coreRequest {p : Port} {r : Request} {effect : State → State} (he : ∀ t, P t → P (effect t)) (hs : P s) :
    Answers P (coreRequest s p r effect) := by
  rcases coreRequest_next s p r effect with hr | ⟨t, ⟨_, ht⟩, hr | ⟨status, hr⟩⟩
  · rw [hr]; exact .next hs
  · rw [hr]
    exact .next (he t (h.same (ht ▸ s.same_ready.trans (State.same_took _ p)) hs))
  · rw [hr]
    exact .next (h.same (ht ▸ (s.same_ready.trans (State.same_took _ p)).trans (State.same_refuse _ p _ status)) hs)

/-- A request whose effect leaves the accounts as they are. -/
theorem coreRequest_same {p : Port} {r : Request} {effect : State → State} (he : ∀ t, SameAccounts t (effect t))
    (hs : P s) : Answers P (Machine.coreRequest s p r effect) :=
  h.coreRequest (fun t => h.same (he t)) hs

theorem coreEvent {event : State → Option State} (he : ∀ t u, P t → event t = some u → P u) (hs : P s) :
    Answers P (coreEvent s event) := by
  rcases coreEvent_next s event with hr | ⟨t, u, ⟨_, ht⟩, hu, hr⟩
  · rw [hr]; exact .next hs
  · rw [hr]
    exact .next (he t u (h.same (ht ▸ s.same_ready) hs) hu)

/-- Every row of the table keeps what the few things of `KeptByCore` keep. -/
theorem exec (c : Instr) (hs : P s) : Answers P (exec c s) := by
  have same {o : Result} (ho : Answers (SameAccounts s) o) : Answers P o := ho.mono fun _ ht => h.same ht hs
  cases c with
  | nop p mosi => exact same (execNop_same s p mosi)
  | rpt p mosi => exact same (execRpt_same s p mosi)
  | ntf p mosi => exact same (execNtf_same s p mosi)
  | fill p mosi => exact same (execFill_same s p mosi)
  | csnFall p => exact same (execCsnFall_same s p)
  | requestTaken p mosi => exact same (execRequestTaken_same s p mosi)
  | frameError p mosi => exact same (execFrameError_same s p mosi)
  | unknown p mosi => exact same (execUnknown_same s p mosi)
  | pending p mosi => exact same (execPending_same s p mosi)
  | notReady p mosi before => exact same (execNotReady_same s p mosi before)
  | replyPlaced p => exact same (execReplyPlaced_same s p)
  | noticePost p => exact same (execNoticePost_same s p)
  | att p tag lease => exact h.coreRequest_same (fun t => t.same_answerAtt p lease) hs
  | det p tag =>
    exact h.coreRequest (fun _ ht => h.same (State.same_replyWith _ p _ _) (h.detachSession p ht)) hs
  | rsv p tag pool floor max wait => exact h.coreRequest (fun _ => h.answerRsv p tag pool floor max wait) hs
  | adj p tag handle units => exact h.coreRequest (fun _ => h.answerAdj p handle units) hs
  | rel p tag handle => exact h.coreRequest (fun _ => h.answerRel p handle) hs
  | can p tag ticket => exact h.coreRequest (fun _ => h.answerCan p ticket) hs
  | cnf p tag handle => exact h.coreRequest (fun _ => h.answerCnf p handle) hs
  | qgr p tag handle => exact h.coreRequest_same (fun t => t.same_answerQgr p handle) hs
  | qpl p tag pool => exact h.coreRequest_same (fun t => t.same_answerQpl p pool) hs
  | qpt p tag => exact h.coreRequest_same (fun t => t.same_answerQpt p) hs
  | qdv p tag => exact h.coreRequest_same (fun t => t.same_replyWith p _ _) hs
  | clm p tag mask mode watch => exact h.coreRequest_same (fun t => t.same_answerClm p mask mode watch) hs
  | drp p tag mask => exact h.coreRequest_same (fun t => t.same_answerDrp p mask) hs
  | cnt p tag mask => exact h.coreRequest_same (fun t => t.same_answerCnt p mask) hs
  | uwt p tag mask => exact h.coreRequest_same (fun t => t.same_answerUwt p mask) hs
  | scp p tag pool nominal derated => exact h.coreRequest (fun _ => h.answerScp p pool nominal derated) hs
  | rvk p tag handle => exact h.coreRequest (fun _ => h.answerRvk p handle) hs
  | evc p tag target => exact h.coreRequest (fun _ => h.answerEvc p target) hs
  | rsr p tag => exact h.coreRequest_same (fun t => t.same_answerRsr p) hs
  | srd p tag slot block =>
    exact h.coreRequest_same (fun t => t.same_inStore p _ fun u => u.same_answerSrd p slot block) hs
  | stg p tag block data =>
    exact h.coreRequest_same (fun t => t.same_inStore p _ fun u => u.same_answerStg p block data) hs
  | chk p tag => exact h.coreRequest_same (fun t => t.same_inStore p _ fun u => u.same_answerChk p) hs
  | sel p tag => exact h.coreRequest_same (fun t => t.same_inStore p _ fun u => u.same_answerSel p) hs
  | sealEnd result => exact same (execSealEnd_same s result)
  | tick lines disturbed => exact same (execTick_same s lines disturbed)
  | leaseExpiry p => exact same (dueStep_same s _)
  | lapse p => exact h.coreEvent (fun _ _ ht hu => h.takeLapse p ht hu) hs
  | deadlineExpiry ticket => exact same (dueStep_same s _)
  | expiryEvent ticket => exact h.coreEvent (fun _ _ ht hu => h.takeExpiry _ ht hu) hs
  | lineAsserted g => exact same (dueStep_same s _)
  | lineDeasserted g => exact same (dueStep_same s _)
  | qualifyTimerExpiry g => exact same (dueStep_same s _)
  | restoreTimerExpiry g => exact same (dueStep_same s _)
  | derateEvent g => exact h.coreEvent (fun _ _ ht hu => h.takeSagEvent _ (fun _ => h.derateGroup g) ht hu) hs
  | restoreEvent g => exact h.coreEvent (fun _ _ ht hu => h.takeSagEvent _ (fun _ => h.restoreGroup g) ht hu) hs
  | auditTimerExpiry => exact same (dueStep_same s _)
  | auditEnd => exact h.coreEvent (fun _ _ ht hu => h.takeAuditEnd ht hu) hs
  | rstnLow => exact same (execRstnLow_same s)
  | warmReset cut => exact same (execWarmReset_same s cut)
  | rstnHigh => exact same (execRstnHigh_same s)
  | powerOn => exact same (execPowerOn_same s)
  | powerInterruption cut => exact same (execPowerInterruption_same s cut)
  | warmStart disturbed =>
    show Answers P (execWarmStart disturbed s)
    unfold execWarmStart
    split
    · exact .next (h.completeWarmStart disturbed hs)
    · exact .next hs
  | coldStart prog =>
    show Answers P (execColdStart prog s)
    unfold execColdStart
    split
    · exact .next (h.completeColdStart prog)
    · exact .next hs

theorem step (hs : P s) : Answers P (step s) := by
  unfold Machine.step
  split
  · exact .next hs
  · exact h.exec _ (h.same (s := s) (.of_tables rfl rfl rfl rfl) hs)

end KeptByCore

end Sys2Proof.Machine
end

section
/-! Proofs, part 8: the steps that every step is made of keep L1, L2, L5, L6 and the age list; so every step does. -/

namespace Sys2Proof.Machine

/-! ## Changes of a pool's own figures -/

namespace State

variable {s : State} {n : PoolNo} {f : Pool → Pool}

theorem parent_modPool (hp : ∀ q, (f q).parent = q.parent) (m : PoolNo) :
    ((s.modPool n f).pool m).parent = (s.pool m).parent := by
  rw [pool_modPool]
  split
  · rename_i h; rw [hp, h]
  · rfl

theorem family_modPool (hd : ∀ q, (f q).defined = q.defined) (hp : ∀ q, (f q).parent = q.parent) (hf : FamilyLaw s) :
    FamilyLaw (s.modPool n f) :=
  hf.congr (fun m => by
    rw [pool_modPool]
    split
    · rename_i h; rw [hd, h]
    · rfl) (parent_modPool hp)

theorem charge_modPool (hp : ∀ q, (f q).parent = q.parent) (hq : ∀ q, (f q).charged = q.charged) (hc : ChargeLaw s) :
    ChargeLaw (s.modPool n f) :=
  .of_parents (s := s) (parent_modPool hp) fun m => by
    refine Eq.trans ?_ (chargeLaw_iff.1 hc m)
    rw [pool_modPool]
    split
    · rename_i h; rw [hq, h]
    · rfl

/-- A DERATED pool stays within its derated capacity if the shed pool alone may be past it before (R91). -/
theorem derate_shed (hf : FamilyLaw s) (hc : ChargeLaw s) (ha : AgeLaw s)
    (hcap : ∀ m, (s.pool m).derated ≤ (s.pool m).nominal)
    (hothers : ∀ m, m ≠ n → (s.pool m).derateState = .derated → (s.pool m).charged ≤ (s.pool m).derated) :
    DerateLaw (s.shed n) := by
  intro m
  obtain ⟨hfig, hfall⟩ := chargesFall_shed hf n m
  have hwithin := shed_within hf hc ha n
  generalize s.shed n = u at hfig hfall hwithin ⊢
  have hstate : (u.pool m).derateState = (s.pool m).derateState := by rw [hfig]
  have hderated : (u.pool m).derated = (s.pool m).derated := by rw [hfig]
  have hnominal : (u.pool m).nominal = (s.pool m).nominal := by rw [hfig]
  refine ⟨by rw [hderated, hnominal]; exact hcap m, fun hd => ?_⟩
  by_cases hm : m = n
  · subst hm
    rwa [effective_of_derated hd] at hwithin
  · rw [hderated]
    exact Nat.le_trans hfall (hothers m hm (hstate ▸ hd))

end State

/-! ## Cold starts -/

namespace ColdTables

variable {s : State} {x : Profile}

theorem grant?_none (h : ColdTables s x) (i : GrantNo) : s.grant? i = none := by
  obtain ⟨_, _, hgrants, _⟩ := h
  rw [State.grant?, hgrants i]

theorem pool (h : ColdTables s x) (n : PoolNo) : s.pool n = Pool.ofProfile x.pools[n] := by
  obtain ⟨_, hpools, _⟩ := h
  exact hpools n

theorem unitsWhere_zero (h : ColdTables s x) (c : Port → PoolNo → Bool) : unitsWhere s c = 0 :=
  unitsWhere_eq_zero fun i g hg => by rw [h.grant?_none i] at hg; cases hg

theorem family (h : ColdTables s x) (hx : LawfulPools x) : FamilyLaw s := by
  intro n r hr
  rw [h.pool n] at hr ⊢
  rw [h.pool r]
  exact (hx n).2 r hr

theorem charge (h : ColdTables s x) : ChargeLaw s :=
  chargeLaw_iff.2 fun n => by rw [h.unitsWhere_zero, h.pool n]; rfl

theorem age (h : ColdTables s x) : AgeLaw s := by
  obtain ⟨_, _, _, hage, _⟩ := id h
  rw [AgeLaw, hage]
  exact ⟨List.nodup_nil, fun i => by rw [h.grant?_none i]; simp⟩

theorem derate (h : ColdTables s x) (hx : LawfulPools x) : DerateLaw s := by
  intro n
  rw [h.pool n]
  exact ⟨(hx n).1, fun hd => nomatch hd⟩

theorem quota (h : ColdTables s x) : QuotaLaw s := fun p n => by
  rw [held_eq, h.unitsWhere_zero]; exact Nat.zero_le _

end ColdTables

/-! ## Every step -/

/-- L6 and L1 are kept by all that steps do to pools and grants. -/
theorem keptByCore_charge : KeptByCore fun s => FamilyLaw s ∧ ChargeLaw s where
  same h hs := ⟨h.family hs.1, h.charge hs.2⟩
  create hs hi _ _ := ⟨State.family_createGrant hs.1, State.charge_createGrant hs.1 hs.2 hi⟩
  grow hs hg hv _ _ := ⟨State.family_growGrant hs.1, State.charge_growGrant hs.1 hs.2 hg hv⟩
  shrink hs hg hv := ⟨State.family_shrinkGrant hs.1, State.charge_shrinkGrant hs.1 hs.2 hg hv⟩
  free i hs := ⟨State.family_freeGrant hs.1 i, State.charge_freeGrant hs.1 hs.2 i⟩
  derate {s} n hs := by
    have hf : FamilyLaw (s.modPool n fun q => { q with derateState := .derated }) :=
      State.family_modPool (fun _ => rfl) (fun _ => rfl) hs.1
    exact ⟨State.family_shed hf n,
      State.charge_shed hf (State.charge_modPool (fun _ => rfl) (fun _ => rfl) hs.2) n⟩
  restore n hs := ⟨State.family_modPool (fun _ => rfl) (fun _ => rfl) hs.1,
    State.charge_modPool (fun _ => rfl) (fun _ => rfl) hs.2⟩
  capacity hs _ _ := ⟨State.family_modPool (fun _ => rfl) (fun _ => rfl) hs.1,
    State.charge_modPool (fun _ => rfl) (fun _ => rfl) hs.2⟩
  lower {s n nominal derated} hs _ := by
    have hf : FamilyLaw (s.recordCapacity n nominal derated) :=
      State.family_modPool (fun _ => rfl) (fun _ => rfl) hs.1
    exact ⟨State.family_shed hf n,
      State.charge_shed hf (State.charge_modPool (fun _ => rfl) (fun _ => rfl) hs.2) n⟩
  cold hx h := ⟨h.family hx, h.charge⟩

/-- The laws of charging together: L6, L1, the age list, L2 and L5. -/
structure ChargingLaws (s : State) : Prop where
  family : FamilyLaw s
  charge : ChargeLaw s
  age : AgeLaw s
  derate : DerateLaw s
  quota : QuotaLaw s

/-- Moving a pool's figures and shedding it keeps the laws, if the new derated capacity is within the nominal one: the shed
brings the pool within it (R15, R86, R91). -/
theorem ChargingLaws.modPool_shed {s : State} (hs : ChargingLaws s) {n : PoolNo} {f : Pool → Pool}
    (hd : ∀ q, (f q).defined = q.defined) (hp : ∀ q, (f q).parent = q.parent) (hq : ∀ q, (f q).charged = q.charged)
    (hcap : (f (s.pool n)).derated ≤ (f (s.pool n)).nominal) : ChargingLaws ((s.modPool n f).shed n) := by
  have hf : FamilyLaw (s.modPool n f) := State.family_modPool hd hp hs.family
  have hc : ChargeLaw (s.modPool n f) := State.charge_modPool hp hq hs.charge
  refine ⟨State.family_shed hf n, State.charge_shed hf hc n, State.age_shed (s := s.modPool n f) hs.age n,
    State.derate_shed hf hc hs.age (fun m => ?_) (fun m hm => ?_), State.quota_shed (s := s.modPool n f) hs.quota n⟩
  · rw [State.pool_modPool]
    split
    · exact hcap
    · exact (hs.derate m).1
  · rw [State.pool_modPool, if_neg hm]
    exact (hs.derate m).2

/-- Moving a pool's figures keeps the laws, if it is still within its derated capacity when DERATED (R4, R91). -/
theorem ChargingLaws.modPool {s : State} (hs : ChargingLaws s) {n : PoolNo} {f : Pool → Pool}
    (hd : ∀ q, (f q).defined = q.defined) (hp : ∀ q, (f q).parent = q.parent) (hq : ∀ q, (f q).charged = q.charged)
    (hcap : (f (s.pool n)).derated ≤ (f (s.pool n)).nominal)
    (hwithin : (f (s.pool n)).derateState = .derated → (s.pool n).charged ≤ (f (s.pool n)).derated) :
    ChargingLaws (s.modPool n f) := by
  refine ⟨State.family_modPool hd hp hs.family, State.charge_modPool hp hq hs.charge, hs.age, fun m => ?_, hs.quota⟩
  rw [State.pool_modPool]
  split
  · exact ⟨hcap, fun h => (hq (s.pool n)).symm ▸ hwithin h⟩
  · exact hs.derate m

theorem keptByCore_chargingLaws : KeptByCore ChargingLaws where
  same h hs := ⟨h.family hs.family, h.charge hs.charge, h.age hs.age, h.derate hs.derate, h.quota hs.quota⟩
  create hs hi hroom hquota :=
    ⟨State.family_createGrant hs.family, State.charge_createGrant hs.family hs.charge hi, State.age_createGrant hs.age hi,
      State.derate_createGrant hs.family hs.derate hroom, State.quota_createGrant hs.quota hi hquota⟩
  grow hs hg hv hroom hquota :=
    ⟨State.family_growGrant hs.family, State.charge_growGrant hs.family hs.charge hg hv, State.age_growGrant hs.age hg,
      State.derate_growGrant hs.family hs.derate hroom, State.quota_growGrant hs.quota hg hv hquota⟩
  shrink hs hg hv :=
    ⟨State.family_shrinkGrant hs.family, State.charge_shrinkGrant hs.family hs.charge hg hv,
      State.age_shrinkGrant hs.age hg, State.derate_shrinkGrant hs.family hs.derate,
      State.quota_shrinkGrant hs.quota hg hv⟩
  free i hs :=
    ⟨State.family_freeGrant hs.family i, State.charge_freeGrant hs.family hs.charge i, State.age_freeGrant hs.age i,
      State.derate_freeGrant hs.family hs.derate i, State.quota_freeGrant hs.quota i⟩
  derate n hs := hs.modPool_shed (fun _ => rfl) (fun _ => rfl) (fun _ => rfl) (hs.derate n).1
  restore n hs := hs.modPool (fun _ => rfl) (fun _ => rfl) (fun _ => rfl) (hs.derate n).1 fun h => nomatch h
  capacity {_ n _ _} hs hle hraise := hs.modPool (fun _ => rfl) (fun _ => rfl) (fun _ => rfl) hle fun h =>
    Nat.le_trans ((hs.derate n).2 h) (hraise h)
  lower hs hle := hs.modPool_shed (fun _ => rfl) (fun _ => rfl) (fun _ => rfl) hle
  cold hx h := ⟨h.family hx, h.charge, h.age, h.derate hx, h.quota⟩

/-- Settles O57: L6 and L1 are kept by all that steps do to pools and grants (`keptByCore_charge`). -/
theorem everyStepKeepsChargedSums : Obligations.EveryStepKeepsChargedSums :=
  fun _ t hstep hf hc => keptByCore_charge.step ⟨hf, hc⟩ t hstep

/-- Settles O58: with L1, L6 and the age list, L2 and L5 are kept by all that steps do to pools and grants; a shed can
always reach the derated capacity (`State.shed_within`). -/
theorem everyStepKeepsCapacityAndQuota : Obligations.EveryStepKeepsCapacityAndQuota := by
  intro _ t hstep hf hc ha hd hq
  have ht := keptByCore_chargingLaws.step ⟨hf, hc, ha, hd, hq⟩ t hstep
  exact ⟨ht.derate, ht.quota⟩

end Sys2Proof.Machine
end

section
/-! Proofs, part 9: the reset state, and the figures of pools (chapter 1). -/

namespace Sys2Proof.Machine

/-! ## The reset state -/

/-- The reset state's tables are those of a cold start that loaded nothing (R151). -/
theorem coldTables_reset : ColdTables State.reset Profile.unconfigured := by
  refine ⟨rfl, fun n => ?_, fun i => Vector.getElem_replicate _, rfl, fun w => Vector.getElem_replicate _,
    fun n => Vector.getElem_replicate _, fun n => Vector.getElem_replicate _, fun p => Vector.getElem_replicate _,
    fun p => Vector.getElem_replicate _, rfl, rfl, rfl, rfl, fun g => by cases g <;> rfl, rfl⟩
  have hx : Profile.unconfigured.pools[n] = PoolProfile.undefined := Vector.getElem_replicate _
  rw [hx]
  exact Vector.getElem_replicate _

theorem port_reset (p : Port) : State.reset.port p = PortCtl.fresh none [] := Vector.getElem_replicate _

theorem imageSlot_reset (i : SlotNo) : State.reset.imageSlot i = { contents := [], state := .blank } :=
  Vector.getElem_replicate _

/-- Settles O2: the tables are those of a cold start that loaded nothing, and the rest is as the state is written. -/
theorem resetStateHoldsColdStartValues : Obligations.ResetStateHoldsColdStartValues := by
  obtain ⟨_, _, hgrants, hage, hwaits, hmarks, htokens, hwatches, hsessions, hwindow, hcount, hsignature, htaken, hlines,
    hphase⟩ := coldTables_reset
  exact ⟨hgrants, hage, hwaits, fun n => Vector.getElem_replicate _, hmarks, htokens, hwatches, hsessions, port_reset,
    hwindow, rfl, hcount, hsignature, htaken, rfl, rfl, rfl, rfl, rfl, rfl, hlines, imageSlot_reset, fun _ => rfl, rfl, rfl,
    rfl, rfl, hphase, rfl, rfl, rfl⟩

namespace ColdTables

variable {s : State} {x : Profile}

theorem record?_none (h : ColdTables s x) (w : WaitNo) : s.record? w = none := by
  obtain ⟨_, _, _, _, hwaits, _⟩ := h
  rw [State.record?, hwaits w]

theorem recordCount_zero (h : ColdTables s x) (p : Port) : s.recordCount p = 0 := by
  have hnone : s.liveRecords = [] := List.filterMap_eq_nil_iff.2 fun w _ => h.record?_none w
  rw [State.recordCount, hnone]; rfl

/-- Nothing is AUDIT after a cold start (R37, R79). -/
theorem anyAudit_false (h : ColdTables s x) : s.anyAudit = false := by
  obtain ⟨_, _, _, _, _, _, htokens, _⟩ := id h
  have hlive : s.liveGrants = [] := List.filterMap_eq_nil_iff.2 fun i _ => h.grant?_none i
  have hmask (p : Port) : s.auditMask p = 0 := mask_ext fun n => by
    rw [State.auditMask, names_maskOf, htokens n, names_zero]; rfl
  simp [State.anyAudit, State.holdsAudit, State.hasAuditGrant, hlive, hmask]

theorem grant (h : ColdTables s x) : GrantLaw s := by
  obtain ⟨_, _, hgrants, _⟩ := id h
  intro i
  rw [hgrants i]
  exact ⟨Nat.le_refl 1, by decide, fun g hg => by rw [h.grant?_none i] at hg; cases hg⟩

theorem wait (h : ColdTables s x) : WaitLaw s := by
  obtain ⟨_, _, _, _, hwaits, _⟩ := id h
  intro w
  rw [hwaits w]
  exact ⟨Nat.le_refl 1, by decide, fun r hr => by rw [h.record?_none w] at hr; cases hr⟩

theorem queue (h : ColdTables s x) : QueueLaw s := by
  intro n
  rw [h.pool n]
  refine ⟨List.nodup_nil, fun w => ⟨fun hw => absurd hw List.not_mem_nil, ?_⟩, List.Pairwise.nil⟩
  rintro ⟨r, hr, _⟩
  rw [h.record?_none w] at hr; cases hr

/-- No port holds or waits for anything after a cold start, so L8 asks only that the lease counters are stopped. -/
theorem session (h : ColdTables s x) (hl : ∀ p, (s.port p).lease = none) : SessionLaw s := by
  obtain ⟨_, _, _, _, _, _, htokens, hwatches, hsessions, _⟩ := id h
  refine ⟨fun i g hg => ?_, fun n p hn => ?_, fun n p hn => ?_, fun w r hr => ?_, fun p hp => absurd (hwatches p) hp,
    fun p hp => ?_, fun p hp => ?_⟩
  · rw [h.grant?_none i] at hg; cases hg
  · rw [htokens n] at hn; cases hn
  · rw [htokens n] at hn; cases hn
  · rw [h.record?_none w] at hr; cases hr
  · rw [hsessions p] at hp; cases hp
  · rw [hl p] at hp; cases hp

end ColdTables

/-- Settles O3: most laws hold of the tables of any cold start. -/
theorem lawsHoldAtReset : Obligations.LawsHoldAtReset := by
  have h := coldTables_reset
  obtain ⟨_, _, _, _, _, _, _, hwatches, _⟩ := id h
  refine ⟨h.grant, h.age, h.wait, h.queue, fun p => ?_, h.family lawfulPools_unconfigured, h.charge,
    h.derate lawfulPools_unconfigured, h.quota, h.session fun p => ?_, h.anyAudit_false.symm, fun p n hn => ?_, fun p => ?_,
    fun hc => absurd hc Bool.false_ne_true, Memory.reset_wf⟩
  · rw [h.recordCount_zero p]; exact Nat.zero_le _
  · rw [port_reset p]; rfl
  · rw [hwatches p, names_zero] at hn; cases hn
  · rw [port_reset p]; exact Nat.zero_le _

/-! ## Room -/

theorem State.available_root {s : State} {n : PoolNo} (h : (s.pool n).parent = none) : s.available n = (s.pool n).room := by
  rw [available, h]

theorem State.available_branch {s : State} {n r : PoolNo} (h : (s.pool n).parent = some r) :
    s.available n = min (s.pool n).room (s.pool r).room := by rw [available, h]

/-- The available room looks at a pool and its root alone (R7). -/
theorem State.available_congr {s t : State} {m : PoolNo} (hm : t.pool m = s.pool m)
    (hr : ∀ r, (s.pool m).parent = some r → t.pool r = s.pool r) : t.available m = s.available m := by
  cases hp : (s.pool m).parent with
  | none => rw [available_root (hm ▸ hp), available_root hp, hm]
  | some r => rw [available_branch (hm ▸ hp), available_branch hp, hm, hr r hp]

/-- Settles O49: the room of a pool and of its root are all that the available room looks at. -/
theorem availableRoomOfRootAndBranch : Obligations.AvailableRoomOfRootAndBranch := by
  intro s n
  refine ⟨?_, (s.pool n).room_eq, State.available_root, fun r hr => ?_, fun m k hne hp => ?_⟩
  · cases hd : (s.pool n).derateState with
    | normal => exact State.effective_of_normal hd
    | derated => exact State.effective_of_derated hd
  · refine ⟨State.available_branch hr, fun hover => ?_⟩
    rw [State.available_branch hr, (s.pool r).room_eq]
    omega
  · refine State.available_congr ?_ fun r hr => ?_
    · rw [State.pool_modPool, if_neg hne]
    · rw [State.pool_modPool, if_neg fun h : r = n => hp (h ▸ hr)]

end Sys2Proof.Machine
end

section
/-! Proofs, part 10: RSV and ADJ, check by check (R178 to R180). -/

namespace Sys2Proof.Machine

namespace State

variable {t : State} {p : Port} {tag pool : Byte} {floor max wait : Word} {n : PoolNo}

/-- The nominal-fit test of a pool and its root (R12). -/
theorem nominalFit_iff {k : Nat} :
    t.nominalFit n k = true ↔ k ≤ (t.pool n).nominal ∧ ∀ r ∈ (t.pool n).parent, k ≤ (t.pool r).nominal := by
  unfold nominalFit
  cases (t.pool n).parent <;> simp

/-- The ahead rule of an ORDERED pool; a FIT pool has none (R10). -/
theorem aheadPasses_iff : t.aheadPasses p n = true ↔ AheadRule t p n := by
  unfold aheadPasses AheadRule
  cases (t.pool n).policy with
  | fit => simp
  | ordered =>
    simp only [List.all_eq_true, forall_const]
    refine forall₂_congr fun w _ => ?_
    cases t.record? w <;> simp

/-! ## RSV -/

theorem answerRsv_noRight (h : (t.portProfile p).reserve = false) :
    t.answerRsv p tag pool floor max wait = refusedWith t p .noRight 6 := by
  unfold answerRsv; rw [h]; rfl

theorem answerRsv_badPool (h : (t.portProfile p).reserve = true) (hn : t.definedPool? pool = none) :
    t.answerRsv p tag pool floor max wait = refusedWith t p .badPool 6 := by
  unfold answerRsv; rw [h, hn]; rfl

/-- The checks of RSV on a defined pool, in the order of R178. -/
def rsvChecks (t : State) (p : Port) (n : PoolNo) (floor max : Word) : List (Bool × Status) :=
  [(t.quota p n != 0, .noRight), (1 ≤ floor.toNat && floor.toNat ≤ max.toNat, .badValue),
    (floor.toNat ≤ t.quotaRoom p n, .overQuota), (t.nominalFit n floor.toNat, .noRoom)]

theorem answerRsv_checks (h : (t.portProfile p).reserve = true) (hn : t.definedPool? pool = some n) :
    t.answerRsv p tag pool floor max wait =
      match firstFailure (t.rsvChecks p n floor max) with
      | some status => refusedWith t p status 6
      | none => t.decideRsv p tag pool n floor max wait := by
  unfold answerRsv; rw [h, hn]; rfl

end State

/-- RSV of an ATTACHED port. -/
theorem exec_rsv_attached {s t : State} {p : Port} {tag pool : Byte} {floor max wait : Word}
    (h : Taken s t p ⟨tag, .rsv pool floor max wait⟩) (ha : Attached t p) :
    exec (.rsv p tag pool floor max wait) s = .next (t.answerRsv p tag pool floor max wait) :=
  coreRequest_attached h ha fun u => u.answerRsv p tag pool floor max wait

/-- Settles O22: the checks are tried in R178's order. -/
theorem reserveChecksInOrder : Obligations.ReserveChecksInOrder := by
  intro s t p tag pool floor max wait h ha
  rw [exec_rsv_attached h ha]
  refine ⟨fun hr => by rw [State.answerRsv_noRight hr],
    fun hr hn => by rw [State.answerRsv_badPool hr (State.definedPool?_eq_none.2 hn)], fun n hr hn hd => ?_⟩
  rw [State.answerRsv_checks hr (State.definedPool?_eq_some.2 ⟨hn, hd⟩)]
  have room : t.quotaRoom p n = t.quota p n - t.held p n := rfl
  refine ⟨fun hq => ?_, fun hq hv => ?_, fun hq h1 h2 hroom => ?_, fun hq h1 h2 hroom hfit => ?_⟩
  · simp [State.rsvChecks, firstFailure_cons, hq]
  · simp only [State.rsvChecks, firstFailure_cons, bne_iff_ne.2 hq, if_true]
    rw [if_neg (by simpa using hv)]
  · simp only [State.rsvChecks, firstFailure_cons, bne_iff_ne.2 hq, h1, h2, decide_true, Bool.and_self, if_true, room]
    rw [if_neg (by simpa using hroom)]
  · have hnofit : ¬ t.nominalFit n floor.toNat = true := by
      rw [State.nominalFit_iff]
      rintro ⟨hn', hr'⟩
      rcases hfit with hlow | ⟨r, hr'', hlow⟩
      · omega
      · exact absurd (hr' r hr'') (Nat.not_le.2 hlow)
    simp only [State.rsvChecks, firstFailure_cons, bne_iff_ne.2 hq, h1, h2, decide_true, Bool.and_self, if_true, room, hroom]
    rw [if_neg hnofit]

/-- An RSV that passes every check of R178 is decided by R179. -/
theorem State.answerRsv_passes {t : State} {p : Port} {tag pool : Byte} {floor max wait : Word} {n : PoolNo}
    (h : ReserveChecksPass t p pool floor max n) :
    t.answerRsv p tag pool floor max wait = t.decideRsv p tag pool n floor max wait := by
  obtain ⟨hr, hn, hd, hq, h1, h2, hroom, hnominal, hroot⟩ := h
  have room : t.quotaRoom p n = t.quota p n - t.held p n := rfl
  have hfit : t.nominalFit n floor.toNat = true := nominalFit_iff.2 ⟨hnominal, hroot⟩
  rw [answerRsv_checks hr (definedPool?_eq_some.2 ⟨hn, hd⟩)]
  have hpass : firstFailure (t.rsvChecks p n floor max) = none := by
    simp only [rsvChecks, firstFailure_cons, bne_iff_ne.2 hq, h1, h2, decide_true, Bool.and_self, if_true, room, hroom, hfit]
    rfl
  rw [hpass]

/-- From a lawful family structure a creation moves the charged sums of the grant's pool and root (R5, R27). -/
theorem State.chargeMoves_createGrant {t : State} (hf : FamilyLaw t) (i : GrantNo) (g : Grant) :
    ChargeMoves t (t.createGrant i g) g.pool (· + g.units) := fun m =>
  pool_addCharge (t.putGrant i g) g.pool m g.units (parent_ne_self hf g.pool)

theorem State.chargeMoves_growGrant {t : State} (hf : FamilyLaw t) (i : GrantNo) (g : Grant) (v : Nat) :
    ChargeMoves t (t.growGrant i g v) g.pool (· + (v - g.units)) := fun m =>
  pool_addCharge (t.putGrant i { g with units := v }) g.pool m (v - g.units) (parent_ne_self hf g.pool)

/-- Settles O23: the decision of R179 creates the grant in the lowest FREE slot. -/
theorem reserveGrantsAtOnce : Obligations.ReserveGrantsAtOnce := by
  intro s t p tag pool floor max wait n i units h ha hf hpass hunits hfloor hahead hi hfull
  have hunits' : t.grantable p n max.toNat = units := hunits.symm
  have hfree : t.freeGrantSlot = some i := State.freeGrantSlot_eq_some.2 ⟨hi, hfull⟩
  refine ⟨t.createGrant i { state := .active, port := p, pool := n, units := units, floor := floor.toNat }, ?_,
    State.chargeMoves_createGrant hf i _, State.createGrant_frame t i _⟩
  rw [exec_rsv_attached h ha, State.answerRsv_passes hpass, State.decideRsv, hfree, hunits',
    State.aheadPasses_iff.2 hahead]
  simp only [hfloor, decide_true, Bool.and_self, if_true]
  rfl

/-! ## ADJ -/

/-- The checks of a growth, in the order of R180. -/
def State.growthChecks (t : State) (p : Port) (n : PoolNo) (more : Nat) : List (Bool × Status) :=
  [(more ≤ t.available n, .noRoom), (more ≤ t.quotaRoom p n, .overQuota), (t.aheadPasses p n, .noRoom)]

section
variable {t : State} {p : Port} {handle units : Word} {i : GrantNo} {g : Grant}

theorem State.answerAdj_badValue (h : units = 0) : t.answerAdj p handle units = refusedWith t p .badValue 4 := if_pos h

theorem State.answerAdj_badHandle (h : units ≠ 0) (hown : t.ownGrant p handle = none) :
    t.answerAdj p handle units = refusedWith t p .badHandle 4 := by
  unfold answerAdj; rw [hown]; exact if_neg h

theorem State.answerAdj_inAudit (h : units ≠ 0) (hown : t.ownGrant p handle = some (i, g)) (hg : g.state = .audit) :
    t.answerAdj p handle units = refusedWith t p .inAudit 4 := by
  unfold answerAdj; rw [hown]; simp only [h, if_false, hg]; rfl

theorem State.answerAdj_active (h : units ≠ 0) (hown : t.ownGrant p handle = some (i, g)) (hg : g.state = .active) :
    t.answerAdj p handle units = t.adjustGrant p (.adj handle units) i g units.toNat := by
  unfold answerAdj; rw [hown]; simp only [h, if_false, hg]

theorem State.adjustGrant_equal (h : units.toNat = g.units) :
    t.adjustGrant p (.adj handle units) i g units.toNat = answered t p .ok (wordField g.units ++ wordField g.floor) :=
  if_pos h

theorem State.adjustGrant_growth (h : g.units < units.toNat) :
    t.adjustGrant p (.adj handle units) i g units.toNat =
      match firstFailure (t.growthChecks p g.pool (units.toNat - g.units)) with
      | some status => refusedWith t p status 4
      | none => answered (t.growGrant i g units.toNat) p .ok (wordField units.toNat ++ wordField g.floor) := by
  unfold adjustGrant
  rw [if_neg (Nat.ne_of_gt h), if_neg (Nat.not_lt.2 (Nat.le_of_lt h))]
  rfl

end

/-- Settles O25: ADJ's refusals, equal units, and the checks of a growth in R180's order. -/
theorem adjustGrowsAllOrNothing : Obligations.AdjustGrowsAllOrNothing := by
  intro s t p tag handle units h ha
  have hexec : exec (.adj p tag handle units) s = .next (t.answerAdj p handle units) :=
    coreRequest_attached h ha fun u => u.answerAdj p handle units
  rw [hexec]
  refine ⟨fun hz => by rw [State.answerAdj_badValue hz],
    fun hz hn => by rw [State.answerAdj_badHandle hz (State.ownGrant_eq_none.2 hn)], fun i g hz hn hp => ?_⟩
  have hown : t.ownGrant p handle = some (i, g) := State.ownGrant_eq_some.2 ⟨hn, hp⟩
  have room : t.quotaRoom p g.pool = t.quota p g.pool - t.held p g.pool := rfl
  refine ⟨fun hg => by rw [State.answerAdj_inAudit hz hown hg], fun hg he => ?_, fun hg hlt hroom => ?_,
    fun hg hlt hroom hquota => ?_, fun hg hlt hroom hquota hahead => ?_, fun hg hlt hroom hquota hahead hf => ?_⟩
  · rw [State.answerAdj_active hz hown hg, State.adjustGrant_equal he]
  · rw [State.answerAdj_active hz hown hg, State.adjustGrant_growth hlt]
    simp only [State.growthChecks, firstFailure_cons, decide_eq_true_iff, if_neg (Nat.not_le.2 hroom)]
  · rw [State.answerAdj_active hz hown hg, State.adjustGrant_growth hlt]
    simp only [State.growthChecks, firstFailure_cons, decide_eq_true_iff, if_pos hroom, room, if_neg (Nat.not_le.2 hquota)]
  · rw [← State.aheadPasses_iff] at hahead
    rw [State.answerAdj_active hz hown hg, State.adjustGrant_growth hlt]
    simp only [State.growthChecks, firstFailure_cons, decide_eq_true_iff, if_pos hroom, room, if_pos hquota, if_neg hahead]
  · rw [← State.aheadPasses_iff] at hahead
    refine ⟨t.growGrant i g units.toNat, ?_, State.chargeMoves_growGrant hf i g units.toNat,
      State.growGrant_frame t i g units.toNat⟩
    rw [State.answerAdj_active hz hown hg, State.adjustGrant_growth hlt]
    simp only [State.growthChecks, firstFailure_cons, decide_eq_true_iff, if_pos hroom, room, if_pos hquota, if_pos hahead]
    rfl

end Sys2Proof.Machine
end

section
/-! Proofs, part 11: the service pass (R47 to R55). -/

namespace Sys2Proof.Machine

/-! ## What a pass touches -/

namespace OnlyServes

variable {s t u : State}

theorem refl (s : State) : OnlyServes s s := ⟨rfl, .refl s, fun _ _ h => h⟩

theorem trans (h : OnlyServes s t) (k : OnlyServes t u) : OnlyServes s u := by
  obtain ⟨hframe, hfig, hkeeps⟩ := h
  obtain ⟨kframe, kfig, kkeeps⟩ := k
  refine ⟨?_, hfig.trans kfig, fun i g hg => kkeeps i g (hkeeps i g hg)⟩
  exact kframe.trans (congrArg (fun x : State => { x with
    pools := u.pools, grants := u.grants, ageList := u.ageList, waits := u.waits, marks := u.marks
    transit := u.transit }) hframe)

end OnlyServes

namespace State

variable (s : State)

theorem onlyServes_setMark (n : PoolNo) (b : Bool) : OnlyServes s (s.setMark n b) := ⟨rfl, fun _ => rfl, fun _ _ h => h⟩

theorem onlyServes_post (p : Port) (x : Notice) : OnlyServes s (s.post p x) := ⟨rfl, fun _ => rfl, fun _ _ h => h⟩

theorem onlyServes_removeRecord (w : WaitNo) : OnlyServes s (s.removeRecord w) := by
  refine ⟨?_, (s.same_removeRecord w).figures, fun i g hg => by rwa [grant?_removeRecord]⟩
  cases h : s.record? w with
  | none => rw [removeRecord_free h]
  | some r => rw [removeRecord_live h]

/-- Creating a grant moves charged sums alone, whatever the parents are (R5). -/
theorem pool_createGrant_keeps (i : GrantNo) (g : Grant) (n : PoolNo) :
    (s.createGrant i g).pool n = { s.pool n with charged := ((s.createGrant i g).pool n).charged } :=
  pool_addCharge_keeps (s.putGrant i g) g.pool n g.units

theorem onlyServes_createGrant {i : GrantNo} (hi : s.grant? i = none) (g : Grant) : OnlyServes s (s.createGrant i g) := by
  refine ⟨?_, fun n => ?_, fun j h hj => ?_⟩
  · rw [createGrant_frame]
  · have hn := pool_createGrant_keeps s i g n
    generalize (s.createGrant i g).pool n = q at hn ⊢
    rw [hn]
  · rw [grant?_createGrant, if_neg]
    · exact hj
    · rintro rfl; rw [hi] at hj; cases hj

theorem onlyServes_refuseForQuota (w : WaitNo) (r : WaitRecord) : OnlyServes s (s.refuseForQuota w r) :=
  (s.onlyServes_removeRecord w).trans (onlyServes_post _ _ _)

theorem onlyServes_grantRecord (w : WaitNo) (r : WaitRecord) {i : GrantNo} (hi : s.grant? i = none) (units : Nat) :
    OnlyServes s (s.grantRecord w r i units) :=
  ((s.onlyServes_createGrant hi _).trans (onlyServes_removeRecord _ w)).trans (onlyServes_post _ _ _)

/-- A pass moves nothing but what it touches, whatever the laws (R47, R49). -/
theorem onlyServes_servicePass (roots : List PoolNo) : OnlyServes s (s.servicePass roots) :=
  servicePass_induct (fun t n b h => h.trans (t.onlyServes_setMark n b))
    (fun t w r h _ _ => h.trans (t.onlyServes_refuseForQuota w r))
    (fun t w r _ h _ _ hi _ => h.trans (t.onlyServes_grantRecord w r (freeGrantSlot_eq_some.1 hi).1 _)) s roots (.refl s)

end State

/-! ## What a pass keeps -/

/-- What a pass that starts from `s` keeps at each state it comes to: L6, L5, and within its effective capacity every pool
that was in `s`. -/
structure ServesWithin (s t : State) : Prop where
  family : FamilyLaw t
  quota : QuotaLaw t
  within : ∀ n, (s.pool n).charged ≤ (s.pool n).effective → (t.pool n).charged ≤ (t.pool n).effective

theorem ServesWithin.same {s t u : State} (h : ServesWithin s t) (k : SameAccounts t u) : ServesWithin s u :=
  ⟨k.family h.family, k.quota h.quota, fun n hn => by
    have hw := h.within n hn
    rw [k.figures.effective n, k.pools n]; exact hw⟩

theorem ServesWithin.createGrant {s t : State} (h : ServesWithin s t) {i : GrantNo} {g : Grant} (hi : t.grant? i = none)
    (hroom : g.units ≤ t.available g.pool) (hquota : g.units ≤ t.quotaRoom g.port g.pool) :
    ServesWithin s (t.createGrant i g) :=
  ⟨State.family_createGrant h.family, State.quota_createGrant h.quota hi hquota, fun n hn => by
    rw [(State.figures_createGrant h.family).effective n, State.pool_createGrant h.family]
    exact State.charged_add_le hroom (h.within n hn)⟩

/-- A pass overdraws no pool and exceeds no quota (R9, law L3). -/
theorem State.servicePass_within {s : State} (hf : FamilyLaw s) (hq : QuotaLaw s) (roots : List PoolNo) :
    ServesWithin s (s.servicePass roots) := by
  refine servicePass_induct ?_ ?_ ?_ s roots ⟨hf, hq, fun _ h => h⟩
  · exact fun t n b h => h.same (t.same_setMark n b)
  · exact fun t w r h _ _ => h.same (t.same_refuseForQuota w r)
  · intro t w r _ h _ _ hi _
    refine (h.createGrant (freeGrantSlot_eq_some.1 hi).1 ?_ ?_).same (t.same_grantRecord w r _ _)
    · exact Nat.le_trans (Nat.min_le_right _ _) (Nat.min_le_left _ _)
    · exact Nat.le_trans (Nat.min_le_right _ _) (Nat.min_le_right _ _)

/-! ## A pass, record by record -/

namespace State

variable {s : State} {fam : PoolNo} {w : WaitNo} {rest : List WaitNo} {r : WaitRecord}

/-- The three conditions of R50, in their order. -/
theorem weigh_overQuota (h : s.quotaRoom r.port r.pool < r.floor) : s.weigh r = .overQuota := if_pos h

theorem weigh_noSlot (h : r.floor ≤ s.quotaRoom r.port r.pool) (hi : s.freeGrantSlot = none) : s.weigh r = .noSlot := by
  rw [weigh, if_neg (Nat.not_lt.2 h), hi]

theorem weigh_grant (h : r.floor ≤ s.quotaRoom r.port r.pool) {i : GrantNo} (hi : s.freeGrantSlot = some i)
    (hu : r.floor ≤ s.grantable r.port r.pool r.max) : s.weigh r = .grant i (s.grantable r.port r.pool r.max) := by
  rw [weigh, if_neg (Nat.not_lt.2 h), hi]
  exact if_pos hu

theorem weigh_tooLittle (h : r.floor ≤ s.quotaRoom r.port r.pool) {i : GrantNo} (hi : s.freeGrantSlot = some i)
    (hu : s.grantable r.port r.pool r.max < r.floor) : s.weigh r = .tooLittle := by
  rw [weigh, if_neg (Nat.not_lt.2 h), hi]
  exact if_neg (Nat.not_le.2 hu)

/-- A record removed for quota: the pass goes on (R53). -/
theorem serve_overQuota (hr : s.record? w = some r) (h : s.weigh r = .overQuota) :
    serveOrdered fam s (w :: rest) = serveOrdered fam (s.refuseForQuota w r) rest ∧
      serveFit fam s (w :: rest) = serveFit fam (s.refuseForQuota w r) rest := by
  constructor
  · rw [serveOrdered, hr]; simp only [h]
  · rw [serveFit, hr]; simp only [h]

/-- No FREE slot: the pool stops and its family is marked (R54). -/
theorem serve_noSlot (hr : s.record? w = some r) (h : s.weigh r = .noSlot) :
    serveOrdered fam s (w :: rest) = s.setMark fam true ∧ serveFit fam s (w :: rest) = s.setMark fam true := by
  constructor
  · rw [serveOrdered, hr]; simp only [h]
  · rw [serveFit, hr]; simp only [h]

/-- A record granted: the pass goes on (R55). -/
theorem serve_grant (hr : s.record? w = some r) {i : GrantNo} {units : Nat} (h : s.weigh r = .grant i units) :
    serveOrdered fam s (w :: rest) = serveOrdered fam (s.grantRecord w r i units) rest ∧
      serveFit fam s (w :: rest) = serveFit fam (s.grantRecord w r i units) rest := by
  constructor
  · rw [serveOrdered, hr]; simp only [h]
  · rw [serveFit, hr]; simp only [h]

/-- Too little available: an ORDERED pool stops, a FIT pool goes on (R51, R52). -/
theorem serve_tooLittle (hr : s.record? w = some r) (h : s.weigh r = .tooLittle) :
    serveOrdered fam s (w :: rest) = s ∧ serveFit fam s (w :: rest) = serveFit fam s rest := by
  constructor
  · rw [serveOrdered, hr]; simp only [h]
  · rw [serveFit, hr]; simp only [h]

theorem refuseForQuota_eq (hr : s.record? w = some r) : s.refuseForQuota w r = refusedForQuota s w r := by
  rw [refuseForQuota, removeRecord_live hr]; rfl

/-- What the granting of a record leaves (R27, R46, R55). -/
theorem passGrants_grantRecord (hr : s.record? w = some r) (i : GrantNo) (units : Nat)
    (hself : (s.pool r.pool).parent ≠ some r.pool) : PassGrants s (s.grantRecord w r i units) w r i units := by
  generalize hg : ({ state := .active, port := r.port, pool := r.pool, units := units, floor := r.floor } : Grant) = g
  have hpool : g.pool = r.pool := by rw [← hg]
  have hunits : g.units = units := by rw [← hg]
  have hgrant : s.grantRecord w r i units =
      ((s.createGrant i g).removeRecord w).post r.port (.granted (s.ticketOf w) (s.handleOf i) units r.tag) := by
    rw [← hg]; rfl
  have charged : ∀ m, (s.createGrant i g).pool m = if m = r.pool ∨ (s.pool r.pool).parent = some m then
      { s.pool m with charged := (s.pool m).charged + units } else s.pool m := by
    intro m
    rw [← hpool, ← hunits]
    exact pool_addCharge (s.putGrant i g) g.pool m g.units (by rw [hpool]; exact hself)
  have hframe := s.createGrant_frame i g
  have hlive : (s.createGrant i g).record? w = some r := by rw [hframe]; exact hr
  rw [hgrant, removeRecord_live hlive]
  refine ⟨fun m => ?_, ?_⟩
  · refine (set_get _ _ m _).trans ?_
    have hm := charged m
    by_cases hmr : m = r.pool
    · subst hmr
      rw [if_pos rfl, if_pos (.inl rfl), if_pos rfl, hm, if_pos (.inl rfl)]
    · rw [if_neg hmr, if_neg hmr]
      refine hm.trans ?_
      split <;> rfl
  · rw [hframe, ← hg]; rfl

/-- One record of a pass (R50 to R55). -/
theorem servesRecord (hr : s.record? w = some r) : ServesRecord s fam w rest r := by
  have room : s.quotaRoom r.port r.pool = s.quota r.port r.pool - s.held r.port r.pool := rfl
  have amount : s.grantable r.port r.pool r.max =
      min r.max (min (s.available r.pool) (s.quota r.port r.pool - s.held r.port r.pool)) := rfl
  refine ⟨fun hq => ?_, fun hq hfull => ?_, fun i hq hi hfull hu hself => ?_, fun hq ⟨i, hi⟩ hu => ?_⟩
  · rw [← refuseForQuota_eq hr]
    exact serve_overQuota hr (weigh_overQuota (room ▸ hq))
  · exact serve_noSlot hr (weigh_noSlot (room ▸ hq) (freeGrantSlot_eq_none.2 hfull))
  · exact ⟨_, passGrants_grantRecord hr i _ hself,
      serve_grant hr (weigh_grant (room ▸ hq) (freeGrantSlot_eq_some.2 ⟨hi, hfull⟩) (amount ▸ hu))⟩
  · cases hfree : s.freeGrantSlot with
    | none =>
      have hlive := freeGrantSlot_eq_none.1 hfree i
      rw [hi] at hlive; cases hlive
    | some j => exact serve_tooLittle hr (weigh_tooLittle (room ▸ hq) hfree (amount ▸ hu))

/-- A FIT queue of which no record can be granted is left as it is (R52). -/
theorem serveFit_stays {l : List WaitNo}
    (h : ∀ w ∈ l, ∀ rest, ∃ r ∈ s.record? w, serveFit fam s (w :: rest) = serveFit fam s rest) : serveFit fam s l = s := by
  induction l with
  | nil => rfl
  | cons w rest ih =>
    obtain ⟨_, _, hw⟩ := h w List.mem_cons_self rest
    exact hw.trans (ih fun v hv => h v (List.mem_cons_of_mem w hv))

end State

/-- Settles O50: the laws by induction over what a pass can do, the rest by its equations. -/
theorem servicePassGrantsWithinRoom : Obligations.ServicePassGrantsWithinRoom := by
  refine ⟨fun s roots hf hq => ?_, fun _ _ => rfl, fun _ _ => rfl, fun s fam n => ?_, fun _ _ => ⟨rfl, rfl⟩,
    fun _ _ _ _ _ hr => State.servesRecord hr, fun s fam n => ⟨fun hp hhead => ?_, fun hp hall => ?_⟩⟩
  · have hwithin := State.servicePass_within hf hq roots
    exact ⟨s.onlyServes_servicePass roots, hwithin.quota, hwithin.within⟩
  · unfold State.servePool
    cases (s.pool n).policy <;> rfl
  · unfold State.servePool
    rw [hp]
    cases hqueue : (s.pool n).queue with
    | nil => rfl
    | cons w rest =>
      obtain ⟨r, hr, hq, hfree, hu⟩ := hhead w (by rw [hqueue]; rfl)
      obtain ⟨_, _, _, hstays⟩ := State.servesRecord (fam := fam) (rest := rest) hr
      exact (hstays hq hfree hu).1
  · unfold State.servePool
    rw [hp]
    refine State.serveFit_stays fun w hw rest => ?_
    obtain ⟨r, hr, hq, hfree, hu⟩ := hall w hw
    obtain ⟨_, _, _, hstays⟩ := State.servesRecord (fam := fam) (rest := rest) hr
    exact ⟨r, hr, (hstays hq hfree hu).2⟩

end Sys2Proof.Machine
end

section
/-! Proofs, part 12: SCP and the consequences of a capacity change (R13 to R17, R192). -/

namespace Sys2Proof.Machine

/-! ## What a shed touches -/

namespace OnlySheds

variable {s t u : State}

theorem refl (s : State) : OnlySheds s s := ⟨rfl, fun _ => rfl, fun _ g hg => ⟨g, hg, rfl, Nat.le_refl _⟩⟩

theorem trans (h : OnlySheds s t) (k : OnlySheds t u) : OnlySheds s u := by
  obtain ⟨hframe, hpools, hgrants⟩ := h
  obtain ⟨kframe, kpools, kgrants⟩ := k
  refine ⟨?_, fun n => ?_, fun i x hx => ?_⟩
  · exact kframe.trans (congrArg (fun y : State => { y with
      pools := u.pools, grants := u.grants, ageList := u.ageList, transit := u.transit, sessions := u.sessions
      window := u.window }) hframe)
  · rw [kpools n, hpools n]
  · obtain ⟨y, hy, hxy, hle⟩ := kgrants i x hx
    obtain ⟨z, hz, hyz, hle'⟩ := hgrants i y hy
    exact ⟨z, hz, by rw [hxy, hyz], Nat.le_trans hle hle'⟩

end OnlySheds

namespace State

variable (s : State)

theorem onlySheds_post (p : Port) (x : Notice) : OnlySheds s (s.post p x) :=
  ⟨rfl, fun _ => rfl, fun _ g hg => ⟨g, hg, rfl, Nat.le_refl _⟩⟩

/-- A trim to no less than the floor leaves the grant's floor (R89). -/
theorem onlySheds_shrinkGrant {i : GrantNo} {g : Grant} {v : Nat} (hg : s.grant? i = some g) (hfloor : g.floor ≤ v)
    (hv : v ≤ g.units) : OnlySheds s (s.shrinkGrant i g v) := by
  refine ⟨?_, fun n => ?_, fun j x hx => ?_⟩
  · rw [shrinkGrant_frame]
  · exact pool_subCharge_keeps (s.putGrant i { g with units := v, floor := min g.floor v }) g.pool n (g.units - v)
  · rw [grant?_shrinkGrant, Nat.min_eq_left hfloor] at hx
    split at hx
    · rename_i hj
      cases hx
      exact ⟨g, hj ▸ hg, rfl, hv⟩
    · exact ⟨x, hx, rfl, Nat.le_refl _⟩

theorem onlySheds_freeGrant (i : GrantNo) : OnlySheds s (s.freeGrant i) := by
  cases hg : s.grant? i with
  | none => rw [freeGrant_free hg]; exact .refl s
  | some g =>
    refine ⟨?_, fun n => ?_, fun j x hx => ?_⟩
    · rw [freeGrant_live hg]
    · unfold freeGrant
      rw [hg]
      exact pool_subCharge_keeps (s.setGrantSlot i _) g.pool n g.units
    · rw [grant?_freeGrant] at hx
      split at hx
      · cases hx
      · exact ⟨x, hx, rfl, Nat.le_refl _⟩

/-- A shed moves nothing but what it touches (R89 to R91). -/
theorem onlySheds_shed (n : PoolNo) : OnlySheds s (s.shed n) :=
  shed_induct
    (fun t _ _ _ h hg hfloor hv =>
      (h.trans (t.onlySheds_shrinkGrant hg hfloor (Nat.le_of_lt hv))).trans (onlySheds_post _ _ _))
    (fun t i _ h _ => (h.trans (t.onlySheds_freeGrant i)).trans (onlySheds_post _ _ _)) s n (.refl s)

/-! ## The consequences of AUDIT holdings that went -/

theorem session_detachIfBare (p q : Port) : (s.detachIfBare p).session q =
    if q = p ∧ (s.session q).state = .recovering ∧ s.holdsAudit q = false then { s.session q with state := .detached }
    else s.session q := by
  by_cases hq : q = p
  · subst hq
    unfold detachIfBare
    by_cases hc : (s.session q).state = .recovering ∧ s.holdsAudit q = false
    · simp [hc]
    · rw [if_neg hc, if_neg fun h => hc h.2]
  · rw [if_neg fun h : q = p ∧ _ => hq h.1]
    unfold detachIfBare
    split
    · rw [session_setSession, if_neg hq]
    · rfl

theorem foldl_detachIfBare (l : List Port) (hl : l.Nodup) : ∀ s : State,
    (∀ q, (l.foldl detachIfBare s).session q =
      if q ∈ l ∧ (s.session q).state = .recovering ∧ s.holdsAudit q = false then { s.session q with state := .detached }
      else s.session q) ∧
    l.foldl detachIfBare s = { s with sessions := (l.foldl detachIfBare s).sessions } := by
  induction l with
  | nil => intro s; exact ⟨fun q => by simp, rfl⟩
  | cons p rest ih =>
    intro s
    obtain ⟨hp, hrest⟩ := List.nodup_cons.1 hl
    have hframe : s.detachIfBare p = { s with sessions := (s.detachIfBare p).sessions } := by
      unfold detachIfBare; split <;> rfl
    have haudit : ∀ q, (s.detachIfBare p).holdsAudit q = s.holdsAudit q := fun q => by rw [hframe]; rfl
    obtain ⟨hs, hf⟩ := ih hrest (s.detachIfBare p)
    rw [List.foldl_cons]
    generalize rest.foldl detachIfBare (s.detachIfBare p) = t at hs hf
    refine ⟨fun q => ?_, ?_⟩
    · rw [hs q, session_detachIfBare, haudit q]
      by_cases hq : q = p
      · subst hq; simp [hp]
      · simp [hq]
    · exact hf.trans (congrArg (fun y : State => { y with sessions := t.sessions }) hframe)

/-- R113 for every port; nothing but sessions moves. -/
theorem detachBare_effect :
    (∀ q, s.detachBare.session q =
      if (s.session q).state = .recovering ∧ s.holdsAudit q = false then { s.session q with state := .detached }
      else s.session q) ∧
    s.detachBare = { s with sessions := s.detachBare.sessions } := by
  obtain ⟨hs, hf⟩ := foldl_detachIfBare (List.finRange 4) (List.nodup_finRange 4) s
  exact ⟨fun q => by rw [detachBare, hs q]; simp, hf⟩

theorem closeIfDone_eq : s.closeIfDone = { s with window := windowAfter s s } := by
  unfold closeIfDone windowAfter
  split <;> rfl

/-- Whether an AUDIT holding exists does not depend on the sessions. -/
theorem anyAudit_sessions (x : Vector Session 4) : ({ s with sessions := x } : State).anyAudit = s.anyAudit := rfl

theorem detachesBare_closeIfDone : DetachesBare s s.detachBare.closeIfDone := by
  obtain ⟨hs, hf⟩ := s.detachBare_effect
  generalize s.detachBare = t at hs hf ⊢
  have haudit : t.anyAudit = s.anyAudit := by rw [hf]; exact s.anyAudit_sessions t.sessions
  have hwindow : t.window = s.window := by rw [hf]
  have hafter : windowAfter t t = windowAfter s s := by rw [windowAfter, windowAfter, haudit, hwindow]
  rw [closeIfDone_eq, hafter]
  unfold DetachesBare
  generalize windowAfter s s = x
  exact ⟨hs, congrArg (fun y : State => { y with window := x }) hf⟩

end State

theorem DetachesBare.pool {w u : State} (h : DetachesBare w u) (n : PoolNo) : u.pool n = w.pool n := by
  obtain ⟨_, hframe⟩ := h
  generalize windowAfter w w = x at hframe
  rw [hframe]; rfl

/-- What follows from the loss of AUDIT holdings stays within what a shed touches. -/
theorem OnlySheds.detachesBare {s t u : State} (h : OnlySheds s t) (k : DetachesBare t u) : OnlySheds s u := by
  obtain ⟨_, hframe⟩ := k
  refine h.trans ⟨?_, fun n => ?_, fun i g hg => ⟨g, ?_, rfl, Nat.le_refl _⟩⟩
  · generalize windowAfter t t = x at hframe
    rw [hframe]
  · rw [hframe]; rfl
  · rw [hframe] at hg; exact hg

/-! ## SCP -/

namespace State

variable {t : State} {p : Port} {pool : Byte} {nominal derated : Word} {n : PoolNo}

theorem answerScp_noRight (h : (t.portProfile p).supervise = false) :
    t.answerScp p pool nominal derated = refusedWith t p .noRight 0 := by
  unfold answerScp; simp only [firstFailure_cons, h]; rfl

theorem answerScp_locked (h : (t.portProfile p).supervise = true) (hl : t.profile.locked = true) :
    t.answerScp p pool nominal derated = refusedWith t p .locked 0 := by
  unfold answerScp; simp only [firstFailure_cons, h, hl]; rfl

theorem answerScp_badPool (h : (t.portProfile p).supervise = true) (hl : t.profile.locked = false)
    (hn : t.definedPool? pool = none) : t.answerScp p pool nominal derated = refusedWith t p .badPool 0 := by
  unfold answerScp; simp only [firstFailure_cons, h, hl, hn]; rfl

theorem answerScp_badValue (h : (t.portProfile p).supervise = true) (hl : t.profile.locked = false)
    (hn : t.definedPool? pool = some n) (hv : nominal.toNat < derated.toNat) :
    t.answerScp p pool nominal derated = refusedWith t p .badValue 0 := by
  unfold answerScp; simp only [firstFailure_cons, h, hl, hn, hv]; rfl

theorem answerScp_changes (h : (t.portProfile p).supervise = true) (hl : t.profile.locked = false)
    (hn : t.definedPool? pool = some n) (hv : derated.toNat ≤ nominal.toNat) :
    t.answerScp p pool nominal derated = answered (t.changeCapacity n nominal.toNat derated.toNat) p .ok [] := by
  unfold answerScp; simp only [firstFailure_cons, h, hl, hn, if_neg (Nat.not_lt.2 hv)]; rfl

/-! ## The four consequences of a capacity change (R14 to R17) -/

section
variable {v : State} {a b : Nat}

theorem changeCapacity_raise (hv : v = t.recordCapacity n a b) (h : (t.pool n).effective < (v.pool n).effective) :
    t.changeCapacity n a b = v.servicePass [v.rootOf n] := by
  subst hv; exact if_pos h

theorem changeCapacity_lower (hv : v = t.recordCapacity n a b) (h : (v.pool n).effective < (t.pool n).effective)
    (hd : (v.pool n).derateState = .derated) : t.changeCapacity n a b = (v.shed n).detachBare.closeIfDone := by
  subst hv
  unfold changeCapacity
  dsimp only
  rw [← recordCapacity, if_neg (Nat.not_lt.2 (Nat.le_of_lt h)), if_pos h]
  split
  · rename_i hn; rw [hd] at hn; cases hn
  · rfl

/-- A lowering of a NORMAL pool and a change that leaves the effective capacity do nothing else. -/
theorem changeCapacity_records (hv : v = t.recordCapacity n a b)
    (h : (v.pool n).effective = (t.pool n).effective ∨
      ((v.pool n).effective < (t.pool n).effective ∧ (v.pool n).derateState = .normal)) :
    t.changeCapacity n a b = v := by
  subst hv
  unfold changeCapacity
  dsimp only
  rw [← recordCapacity]
  rcases h with h | ⟨h, hd⟩
  · rw [if_neg (Nat.not_lt.2 (Nat.le_of_eq h)), if_neg (Nat.not_lt.2 (Nat.le_of_eq h.symm))]
  · rw [if_neg (Nat.not_lt.2 (Nat.le_of_lt h)), if_pos h]
    split
    · rfl
    · rename_i hn; rw [hd] at hn; cases hn

end

end State

/-- Settles O36: the checks of R192 in their order, and then each consequence by the effective capacities. -/
theorem capacityChangeRecordsBothFigures : Obligations.CapacityChangeRecordsBothFigures := by
  intro s t p tag pool nominal derated h ha
  have hexec : exec (.scp p tag pool nominal derated) s = .next (t.answerScp p pool nominal derated) :=
    coreRequest_attached h ha fun u => u.answerScp p pool nominal derated
  rw [hexec]
  refine ⟨fun hs => by rw [State.answerScp_noRight hs], fun hs hl => by rw [State.answerScp_locked hs hl],
    fun hs hl hn => by rw [State.answerScp_badPool hs hl (State.definedPool?_eq_none.2 hn)],
    fun n v hs hl hn hd hv => ?_⟩
  have hdef : t.definedPool? pool = some n := State.definedPool?_eq_some.2 ⟨hn, hd⟩
  have hpool : v.pool n = { t.pool n with nominal := nominal.toNat, derated := derated.toNat } := by
    rw [hv, State.pool_modPool, if_pos rfl]
  have hstate : (v.pool n).derateState = (t.pool n).derateState := by rw [hpool]
  refine ⟨fun hlt => by rw [State.answerScp_badValue hs hl hdef hlt], fun hle hkeep => ?_, fun hle hraise => ?_,
    fun hle hlower hderated hage hfam hcharge => ?_⟩
  · rw [State.answerScp_changes hs hl hdef hle, State.changeCapacity_records hv (by rw [hstate]; exact hkeep)]
  · refine ⟨_, ?_, rfl, v.onlyServes_servicePass _⟩
    rw [State.answerScp_changes hs hl hdef hle, State.changeCapacity_raise hv hraise]
  · have hbare := (v.shed n).detachesBare_closeIfDone
    have hfamV : FamilyLaw v := by
      rw [hv]; exact State.family_modPool (fun _ => rfl) (fun _ => rfl) hfam
    have hchargeV : ChargeLaw v := by
      rw [hv]; exact State.charge_modPool (fun _ => rfl) (fun _ => rfl) hcharge
    have hageV : AgeLaw v := by rw [hv]; exact ⟨hage.1, hage.2⟩
    refine ⟨_, ?_, hbare, (v.onlySheds_shed n).detachesBare hbare, ?_⟩
    · rw [State.answerScp_changes hs hl hdef hle, State.changeCapacity_lower hv hlower (hstate.trans hderated)]
    · have hwithin := State.shed_within hfamV hchargeV hageV n
      have heffective : ((v.shed n).pool n).effective = derated.toNat := by
        rw [(State.chargesFall_shed hfamV n).figures.effective, State.effective_of_derated (hstate.trans hderated), hpool]
      rw [hbare.pool n, ← heffective]
      exact hwithin

end Sys2Proof.Machine
end

section
/-! Proofs, part 13: what of the state the core's rules are about, and the steps that leave it as it is. -/

namespace Sys2Proof.Machine

/-- The tables, sessions and settings of the core: the state with the port controllers, the work on its way between the
blocks, the sag monitor, the profile store and the phase set to fixed values. -/
def State.core (s : State) : State :=
  { s with
    pending := [], phase := .running, rstn := .high, signature := .matching, lastTaken := 0, answering := none
    transit := [], expiryEvents := [], sagEvents := [], auditEndMade := false, due := [], ports := State.reset.ports
    lineA := SagLine.initial, lineB := SagLine.initial, slots := State.reset.slots, staging := [], sealing := none }

/-- From `s` to `t` the core's tables, sessions and settings stay as they are. -/
def KeepsCore (s t : State) : Prop := t.core = s.core

namespace KeepsCore

variable {s t u : State}

theorem refl (s : State) : KeepsCore s s := rfl

theorem trans (h : KeepsCore s t) (k : KeepsCore t u) : KeepsCore s u := Eq.trans k h

theorem core (h : KeepsCore s t) : t.core = s.core := h

theorem foldl {α : Type} {f : State → α → State} (hf : ∀ s x, KeepsCore s (f s x)) (l : List α) (s : State) :
    KeepsCore s (l.foldl f s) := by
  induction l generalizing s with
  | nil => exact refl s
  | cons x rest ih => exact (hf s x).trans (ih (f s x))

end KeepsCore

namespace State

variable (s : State) (p : Port)

/-! ## Updates outside the core's tables -/

@[simp] theorem core_modPort (f : PortCtl → PortCtl) : (s.modPort p f).core = s.core := rfl
@[simp] theorem core_post (n : Notice) : (s.post p n).core = s.core := rfl
@[simp] theorem core_replyWith (x : Status) (l : List Byte) : (s.replyWith p x l).core = s.core := rfl
@[simp] theorem core_refuse (c : Command) (x : Status) : (s.refuse p c x).core = s.core := rfl
@[simp] theorem core_placeReply (x : Status) (tag : Byte) (l : List Byte) : (s.placeReply p x tag l).core = s.core := rfl
@[simp] theorem core_setImageSlot (i : SlotNo) (x : ImageSlot) : (s.setImageSlot i x).core = s.core := rfl
@[simp] theorem core_setLine (g : SagGroup) (x : SagLine) : (s.setLine g x).core = s.core := by cases g <;> rfl
@[simp] theorem core_makeDue (d : Due) : (s.makeDue d).core = s.core := rfl
@[simp] theorem core_took : (s.took p).core = s.core := rfl
@[simp] theorem core_reloadLease : (s.reloadLease p).core = s.core := rfl
@[simp] theorem core_closeTransaction (l : List Byte) : (s.closeTransaction p l).core = s.core := rfl
@[simp] theorem core_beginStart : s.beginStart.core = s.core := rfl

@[simp] theorem core_abortSeal (cut : SealCut) : (s.abortSeal cut).core = s.core := by
  unfold abortSeal
  split <;> rfl

@[simp] theorem core_runDue (d : Due) : (s.runDue d).core = s.core := by rw [runDue_frame]; rfl

@[simp] theorem core_settle : s.settle.core = s.core := by rw [settle_frame]; rfl

@[simp] theorem core_deliverPosts : s.deliverPosts.core = s.core := by rw [deliverPosts_frame]; rfl

@[simp] theorem core_placeAnswer : s.placeAnswer.core = s.core := by rw [placeAnswer_frame]; rfl

/-- A work item begins with what was due and what the item before left (log entries 5 and 6): neither touches the core's
tables. -/
@[simp] theorem core_ready : s.ready.core = s.core :=
  (core_placeAnswer _).trans ((core_deliverPosts _).trans s.core_settle)

theorem keepsCore_disturbed (l : List Disturbance) : KeepsCore s (l.foldl disturb s) :=
  .foldl (fun t _ => t.core_setImageSlot _ _) l s

/-! ## The link's own frames -/

theorem keepsCore_takeNop (tag : Byte) : KeepsCore s (s.takeNop p tag) := by
  unfold KeepsCore takeNop
  dsimp only
  split <;> simp

theorem keepsCore_takeRpt (tag : Byte) : KeepsCore s (s.takeRpt p tag) := by
  unfold KeepsCore takeRpt
  dsimp only
  split
  · simp
  · split <;> simp

theorem keepsCore_takeNtf (tag : Byte) : KeepsCore s (s.takeNtf p tag) := by
  unfold KeepsCore takeNtf
  dsimp only
  split
  · simp
  · split <;> simp

theorem keepsCore_takeRequest (r : Request) : KeepsCore s (s.takeRequest p r) := by
  unfold KeepsCore takeRequest
  dsimp only
  split <;> simp

end State

/-! ## Rows that leave the core's tables as they are -/

theorem csnRise_keepsCore {s : State} {p : Port} {mosi : List Byte} {act : State → State}
    (h : ∀ t, KeepsCore t (act t)) : Answers (KeepsCore s) (csnRise s p mosi act) := by
  rcases csnRise_next s p mosi act with he | ⟨t, ⟨x, _, _, ht⟩, he⟩
  · rw [he]; exact .next (.refl s)
  · rw [he]; exact .next ((ht ▸ s.core_modPort p _ : KeepsCore s t).trans (h t))

theorem dueStep_keepsCore (s : State) (d : Due) : Answers (KeepsCore s) (dueStep s d) := by
  rw [dueStep_next]
  refine .next ?_
  split
  · exact State.core_runDue _ d
  · exact .refl s

/-- The rows of the host port link, the seal's end, the due steps, the pins and the power: all that happens outside the
core's work items, the tick and the starts. -/
def outsideCore : Instr → Bool
  | .nop .. | .rpt .. | .ntf .. | .fill .. | .csnFall .. | .requestTaken .. | .frameError .. | .unknown .. | .pending ..
  | .notReady .. | .replyPlaced .. | .noticePost .. | .sealEnd .. => true
  | .leaseExpiry .. | .deadlineExpiry .. | .lineAsserted .. | .lineDeasserted .. | .qualifyTimerExpiry ..
  | .restoreTimerExpiry .. | .auditTimerExpiry => true
  | .rstnLow | .warmReset .. | .rstnHigh | .powerOn | .powerInterruption .. => true
  | _ => false

section
variable (s : State) (p : Port) (mosi : List Byte)

theorem execNop_keepsCore : Answers (KeepsCore s) (execNop p mosi s) := by
  unfold execNop
  split
  · exact csnRise_keepsCore fun t => t.keepsCore_takeNop p _
  · exact .next (.refl s)

theorem execRpt_keepsCore : Answers (KeepsCore s) (execRpt p mosi s) := by
  unfold execRpt
  split
  · exact csnRise_keepsCore fun t => t.keepsCore_takeRpt p _
  · exact .next (.refl s)

theorem execNtf_keepsCore : Answers (KeepsCore s) (execNtf p mosi s) := by
  unfold execNtf
  split
  · exact csnRise_keepsCore fun t => t.keepsCore_takeNtf p _
  · exact .next (.refl s)

theorem execFill_keepsCore : Answers (KeepsCore s) (execFill p mosi s) := by
  unfold execFill
  split
  · exact csnRise_keepsCore .refl
  · exact csnRise_keepsCore .refl
  · exact .next (.refl s)

theorem execRequestTaken_keepsCore : Answers (KeepsCore s) (execRequestTaken p mosi s) := by
  unfold execRequestTaken
  split
  · exact csnRise_keepsCore fun t => t.keepsCore_takeRequest p _
  · exact .next (.refl s)

theorem execFrameError_keepsCore : Answers (KeepsCore s) (execFrameError p mosi s) := by
  unfold execFrameError
  split
  · exact csnRise_keepsCore fun t => t.core_placeReply p _ _ _
  · exact .next (.refl s)

theorem execUnknown_keepsCore : Answers (KeepsCore s) (execUnknown p mosi s) := by
  unfold execUnknown
  split
  · exact csnRise_keepsCore fun t => t.core_placeReply p _ _ _
  · exact .next (.refl s)

theorem execCsnFall_keepsCore : Answers (KeepsCore s) (execCsnFall p s) := by
  unfold execCsnFall
  split
  · exact .next (.refl s)
  · exact .next (s.core_modPort p _)

theorem execPending_keepsCore : Answers (KeepsCore s) (execPending p mosi s) := by
  unfold execPending
  split
  · exact .next (.refl s)
  · split
    · exact .next (s.core_closeTransaction p _)
    · exact .next (.refl s)

theorem execNotReady_keepsCore (before : Nat) : Answers (KeepsCore s) (execNotReady p mosi before s) := by
  unfold execNotReady
  split
  · exact .next (.refl s)
  · split
    · exact .next (s.core_closeTransaction p _)
    · exact .next (s.core_closeTransaction p _)
    · exact .next (.refl s)
    · exact .next (.refl s)
    · exact .next (.refl s)

theorem execReplyPlaced_keepsCore : Answers (KeepsCore s) (execReplyPlaced p s) := by
  unfold execReplyPlaced
  split
  · exact .next (.refl s)
  · split
    · exact .next (s.deliverPosts.core_placeAnswer.trans s.core_deliverPosts)
    · exact .next (.refl s)

theorem execNoticePost_keepsCore : Answers (KeepsCore s) (execNoticePost p s) := by
  unfold execNoticePost
  split
  · exact .next (.refl s)
  · split
    · exact .next (.refl s)
    · exact .next (.refl s)

theorem execSealEnd_keepsCore (result : SealResult) : Answers (KeepsCore s) (execSealEnd result s) := by
  unfold execSealEnd
  split
  · exact .next (.refl s)
  · split
    · split
      · exact .next (.refl s)
      · exact .next (.refl s)
    · exact .next (.refl s)

theorem execRstnLow_keepsCore : Answers (KeepsCore s) (execRstnLow s) := by
  unfold execRstnLow
  split
  · exact .next (.refl s)
  · refine .next ?_
    unfold State.rstnFalls
    dsimp only
    split <;> rfl

theorem execRstnHigh_keepsCore : Answers (KeepsCore s) (execRstnHigh s) := by
  refine .next ?_
  unfold State.rstnRises
  dsimp only
  split <;> rfl

theorem execWarmReset_keepsCore (cut : SealCut) : Answers (KeepsCore s) (execWarmReset cut s) := by
  unfold execWarmReset
  split
  · exact .next (s.core_abortSeal cut)
  · exact .next (.refl s)

theorem execPowerOn_keepsCore : Answers (KeepsCore s) (execPowerOn s) := by
  unfold execPowerOn
  split
  · exact .next (.refl s)
  · exact .next (.refl s)

theorem execPowerInterruption_keepsCore (cut : SealCut) : Answers (KeepsCore s) (execPowerInterruption cut s) := by
  unfold execPowerInterruption
  split
  · exact .next (.refl s)
  · exact .next (s.core_abortSeal cut)

end

/-- Nothing that happens outside the core's work items, the tick and the starts touches the core's tables. -/
theorem exec_outsideCore {c : Instr} (hc : outsideCore c = true) (s : State) : Answers (KeepsCore s) (exec c s) := by
  cases c with
  | nop p mosi => exact execNop_keepsCore s p mosi
  | rpt p mosi => exact execRpt_keepsCore s p mosi
  | ntf p mosi => exact execNtf_keepsCore s p mosi
  | fill p mosi => exact execFill_keepsCore s p mosi
  | csnFall p => exact execCsnFall_keepsCore s p
  | requestTaken p mosi => exact execRequestTaken_keepsCore s p mosi
  | frameError p mosi => exact execFrameError_keepsCore s p mosi
  | unknown p mosi => exact execUnknown_keepsCore s p mosi
  | pending p mosi => exact execPending_keepsCore s p mosi
  | notReady p mosi before => exact execNotReady_keepsCore s p mosi before
  | replyPlaced p => exact execReplyPlaced_keepsCore s p
  | noticePost p => exact execNoticePost_keepsCore s p
  | sealEnd result => exact execSealEnd_keepsCore s result
  | leaseExpiry p => exact dueStep_keepsCore s _
  | deadlineExpiry ticket => exact dueStep_keepsCore s _
  | lineAsserted g => exact dueStep_keepsCore s _
  | lineDeasserted g => exact dueStep_keepsCore s _
  | qualifyTimerExpiry g => exact dueStep_keepsCore s _
  | restoreTimerExpiry g => exact dueStep_keepsCore s _
  | auditTimerExpiry => exact dueStep_keepsCore s _
  | rstnLow => exact execRstnLow_keepsCore s
  | warmReset cut => exact execWarmReset_keepsCore s cut
  | rstnHigh => exact execRstnHigh_keepsCore s
  | powerOn => exact execPowerOn_keepsCore s
  | powerInterruption cut => exact execPowerInterruption_keepsCore s cut
  | _ => exact absurd hc Bool.false_ne_true

/-! ## Requests that leave the core's tables as they are -/

namespace State

variable (s : State) (p : Port)

theorem keepsCore_answerQgr (handle : Word) : KeepsCore s (s.answerQgr p handle) := by
  unfold answerQgr
  split <;> rfl

theorem keepsCore_answerQpl (pool : Byte) : KeepsCore s (s.answerQpl p pool) := by
  unfold answerQpl
  split <;> rfl

theorem keepsCore_answerQpt : KeepsCore s (s.answerQpt p) := rfl

theorem keepsCore_answerRsr : KeepsCore s (s.answerRsr p) := by
  unfold answerRsr
  split <;> rfl

theorem keepsCore_inStore (c : Command) {effect : State → State} (h : ∀ t, KeepsCore t (effect t)) :
    KeepsCore s (s.inStore p c effect) := by
  unfold inStore
  split
  · exact h s
  · rfl

theorem keepsCore_answerSrd (slot block : Byte) : KeepsCore s (s.answerSrd p slot block) := by
  unfold answerSrd
  split
  · rfl
  · split <;> rfl

theorem keepsCore_answerStg (block : Byte) (data : List Byte) : KeepsCore s (s.answerStg p block data) := by
  unfold answerStg
  split <;> rfl

theorem keepsCore_answerChk : KeepsCore s (s.answerChk p) := by
  unfold answerChk
  split <;> rfl

theorem keepsCore_answerSel : KeepsCore s (s.answerSel p) := by
  unfold answerSel
  split
  · rfl
  · split <;> rfl

end State

/-- A core request keeps what its effect keeps, if nothing outside the core's tables matters for it. -/
theorem coreRequest_keeps {P : State → Prop} (hP : ∀ {s t}, KeepsCore s t → P s → P t) {s : State} {p : Port}
    {r : Request} {effect : State → State} (he : ∀ t, P t → P (effect t)) (hs : P s) :
    Answers P (coreRequest s p r effect) := by
  rcases coreRequest_next s p r effect with hr | ⟨t, ⟨_, ht⟩, hr | ⟨status, hr⟩⟩
  · rw [hr]; exact .next hs
  · rw [hr]; exact .next (he t (hP (ht ▸ (s.ready.core_took p).trans s.core_ready) hs))
  · rw [hr]; exact .next (hP (ht ▸ (s.ready.core_took p).trans s.core_ready) hs)

/-- The core's taking of an event keeps what the event keeps, if nothing outside the core's tables matters for it. -/
theorem coreEvent_keeps {P : State → Prop} (hP : ∀ {s t}, KeepsCore s t → P s → P t) {s : State}
    {event : State → Option State} (he : ∀ t u, P t → event t = some u → P u) (hs : P s) :
    Answers P (coreEvent s event) := by
  rcases coreEvent_next s event with hr | ⟨t, u, ⟨_, ht⟩, hu, hr⟩
  · rw [hr]; exact .next hs
  · rw [hr]; exact .next (he t u (hP (ht ▸ s.core_ready) hs) hu)

end Sys2Proof.Machine
end

section
/-! Proofs, part 14: the tables that L4, L9 and L11 look at, and what each operation does to those laws. -/

namespace Sys2Proof.Machine

/-! ## What the laws look at -/

/-- A wait record, its deadline forgotten: no law of the tables looks at it. -/
def WaitRecord.undated (r : WaitRecord) : WaitRecord := { r with deadline := none }

theorem Grant.fields_of_asActive {g h : Grant} (e : g.asActive = h.asActive) :
    g.port = h.port ∧ g.pool = h.pool ∧ g.units = h.units ∧ g.floor = h.floor := by
  simp only [Grant.asActive, Grant.mk.injEq] at e
  obtain ⟨_, hport, hpool, hunits, hfloor⟩ := e
  exact ⟨hport, hpool, hunits, hfloor⟩

theorem WaitRecord.fields_of_undated {r q : WaitRecord} (e : r.undated = q.undated) :
    r.port = q.port ∧ r.pool = q.pool ∧ r.floor = q.floor ∧ r.max = q.max ∧ r.priority = q.priority := by
  simp only [WaitRecord.undated, WaitRecord.mk.injEq] at e
  obtain ⟨hport, hpool, hfloor, hmax, hpriority, _, _⟩ := e
  exact ⟨hport, hpool, hfloor, hmax, hpriority⟩

/-- From `s` to `t` the grant table and the age list look the same to their laws: nothing but grants' states moves, and
which pools are defined stays. -/
structure SameGrants (s t : State) : Prop where
  defined : ∀ n, (t.pool n).defined = (s.pool n).defined
  generation : ∀ i, (t.grantSlot i).generation = (s.grantSlot i).generation
  grant : ∀ i, (t.grant? i).map Grant.asActive = (s.grant? i).map Grant.asActive
  ageList : t.ageList = s.ageList

/-- From `s` to `t` the wait table and the queues look the same to their laws: nothing but deadlines moves, and which pools
are defined stays. -/
structure SameWaits (s t : State) : Prop where
  defined : ∀ n, (t.pool n).defined = (s.pool n).defined
  queue : ∀ n, (t.pool n).queue = (s.pool n).queue
  generation : ∀ w, (t.waitSlot w).generation = (s.waitSlot w).generation
  record : ∀ w, (t.record? w).map WaitRecord.undated = (s.record? w).map WaitRecord.undated

namespace SameGrants

variable {s t u : State}

theorem refl (s : State) : SameGrants s s := ⟨fun _ => rfl, fun _ => rfl, fun _ => rfl, rfl⟩

theorem trans (h : SameGrants s t) (k : SameGrants t u) : SameGrants s u :=
  ⟨fun n => (k.defined n).trans (h.defined n), fun i => (k.generation i).trans (h.generation i),
    fun i => (k.grant i).trans (h.grant i), k.ageList.trans h.ageList⟩

theorem of_tables (hd : ∀ n, (t.pool n).defined = (s.pool n).defined) (hg : t.grants = s.grants)
    (ha : t.ageList = s.ageList) : SameGrants s t :=
  ⟨hd, fun i => by simp only [State.grantSlot, hg], fun i => by simp only [State.grant?, State.grantSlot, hg], ha⟩

end SameGrants

namespace SameWaits

variable {s t u : State}

theorem refl (s : State) : SameWaits s s := ⟨fun _ => rfl, fun _ => rfl, fun _ => rfl, fun _ => rfl⟩

theorem trans (h : SameWaits s t) (k : SameWaits t u) : SameWaits s u :=
  ⟨fun n => (k.defined n).trans (h.defined n), fun n => (k.queue n).trans (h.queue n),
    fun w => (k.generation w).trans (h.generation w), fun w => (k.record w).trans (h.record w)⟩

theorem of_tables (hd : ∀ n, (t.pool n).defined = (s.pool n).defined) (hq : ∀ n, (t.pool n).queue = (s.pool n).queue)
    (hw : t.waits = s.waits) : SameWaits s t :=
  ⟨hd, hq, fun i => by simp only [State.waitSlot, hw], fun i => by simp only [State.record?, State.waitSlot, hw]⟩

/-- A record of after is a record of before with another deadline. -/
theorem before (h : SameWaits s t) {w : WaitNo} {r : WaitRecord} (hr : t.record? w = some r) :
    ∃ q, s.record? w = some q ∧ q.undated = r.undated := by
  have hw := h.record w
  rw [hr] at hw
  exact Option.map_eq_some_iff.1 hw.symm

theorem symm (h : SameWaits s t) : SameWaits t s :=
  ⟨fun n => (h.defined n).symm, fun n => (h.queue n).symm, fun w => (h.generation w).symm, fun w => (h.record w).symm⟩

end SameWaits

/-- From `s` to `t` all the tables look the same to their laws. -/
structure SameTables (s t : State) : Prop where
  grants : SameGrants s t
  waits : SameWaits s t

namespace SameTables

variable {s t u : State}

theorem refl (s : State) : SameTables s s := ⟨.refl s, .refl s⟩

theorem trans (h : SameTables s t) (k : SameTables t u) : SameTables s u :=
  ⟨h.grants.trans k.grants, h.waits.trans k.waits⟩

theorem foldl {α : Type} {f : State → α → State} (hf : ∀ s x, SameTables s (f s x)) (l : List α) (s : State) :
    SameTables s (l.foldl f s) := by
  induction l generalizing s with
  | nil => exact refl s
  | cons x rest ih => exact (hf s x).trans (ih (f s x))

theorem of_tables (hp : t.pools = s.pools) (hg : t.grants = s.grants) (ha : t.ageList = s.ageList)
    (hw : t.waits = s.waits) : SameTables s t :=
  have hpool (n : PoolNo) : t.pool n = s.pool n := by simp only [State.pool, hp]
  ⟨.of_tables (fun n => by rw [hpool n]) hg ha, .of_tables (fun n => by rw [hpool n]) (fun n => by rw [hpool n]) hw⟩

theorem of_keepsCore (h : KeepsCore s t) : SameTables s t := by
  refine .of_tables ?_ ?_ ?_ ?_
  · show t.core.pools = s.core.pools
    rw [h.core]
  · show t.core.grants = s.core.grants
    rw [h.core]
  · show t.core.ageList = s.core.ageList
    rw [h.core]
  · show t.core.waits = s.core.waits
    rw [h.core]

end SameTables

/-! ## The laws of the grant table -/

/-- The range of one slot of the grant table (L4, R22, R23): `defined` says which pools are defined. -/
def GrantSlotInRange (defined : PoolNo → Prop) (x : GrantSlot) : Prop :=
  1 ≤ x.generation ∧ x.generation ≤ Config.lastGrantGeneration ∧
    ∀ g ∈ x.grant, 1 ≤ g.floor ∧ g.floor ≤ g.units ∧ g.units ≤ 65535 ∧ defined g.pool

/-- The laws of the grant table and the age list. -/
structure GrantTableLaws (s : State) : Prop where
  grant : GrantLaw s
  age : AgeLaw s

/-- The generation after one in range is in range (R23, R40). -/
theorem nextGeneration_range {last g : Nat} (h1 : 1 ≤ g) (h2 : g ≤ last) :
    1 ≤ nextGeneration last g ∧ nextGeneration last g ≤ last := by
  unfold nextGeneration
  split <;> omega

theorem GrantLaw.congr {s t : State} (hl : GrantLaw s) (h : SameGrants s t) : GrantLaw t := by
  intro i
  obtain ⟨hlow, hhigh, hgrant⟩ := hl i
  rw [h.generation i]
  refine ⟨hlow, hhigh, fun g hg => ?_⟩
  have hi := h.grant i
  rw [Option.mem_def.1 hg] at hi
  obtain ⟨x, hx, hxg⟩ := Option.map_eq_some_iff.1 hi.symm
  obtain ⟨_, hpool, hunits, hfloor⟩ := Grant.fields_of_asActive hxg
  rw [← hfloor, ← hunits, ← hpool, h.defined]
  exact hgrant x hx

theorem AgeLaw.congr {s t : State} (hl : AgeLaw s) (h : SameGrants s t) : AgeLaw t := by
  rw [AgeLaw, h.ageList]
  refine ⟨hl.1, fun i => ?_⟩
  rw [hl.2 i, ← Option.isSome_map (f := Grant.asActive), ← h.grant i, Option.isSome_map]

theorem GrantTableLaws.congr {s t : State} (hl : GrantTableLaws s) (h : SameGrants s t) : GrantTableLaws t :=
  ⟨hl.grant.congr h, hl.age.congr h⟩

/-- Putting a slot in range into the grant table keeps L4. -/
theorem GrantLaw.set {s t : State} (hl : GrantLaw s) (hd : ∀ n, (t.pool n).defined = (s.pool n).defined) {i : GrantNo}
    {x : GrantSlot} (hx : GrantSlotInRange (fun n => (s.pool n).defined) x)
    (ht : t.grants = s.grants.set i x) : GrantLaw t := by
  intro j
  have hj : t.grantSlot j = if j = i then x else s.grantSlot j := by
    simp only [State.grantSlot, ht, State.set_get]
  have hrange : GrantSlotInRange (fun n => (s.pool n).defined) (t.grantSlot j) := by
    rw [hj]; split
    · exact hx
    · exact hl j
  have hsame : (fun n => (t.pool n).defined = true) = fun n => (s.pool n).defined = true := by funext n; rw [hd n]
  rw [← hsame] at hrange
  exact hrange

namespace State

variable {s : State} {i : GrantNo} {g : Grant} {v : Nat}

/-- Charging touches neither which pools are defined nor the queues. -/
theorem defined_addCharge (n m : PoolNo) (k : Nat) : ((s.addCharge n k).pool m).defined = (s.pool m).defined := by
  rw [pool_addCharge_keeps]

theorem queue_addCharge (n m : PoolNo) (k : Nat) : ((s.addCharge n k).pool m).queue = (s.pool m).queue := by
  rw [pool_addCharge_keeps]

theorem defined_subCharge (n m : PoolNo) (k : Nat) : ((s.subCharge n k).pool m).defined = (s.pool m).defined := by
  rw [pool_subCharge_keeps]

theorem queue_subCharge (n m : PoolNo) (k : Nat) : ((s.subCharge n k).pool m).queue = (s.pool m).queue := by
  rw [pool_subCharge_keeps]

/-! ## Operations of the grant table leave the wait table and the queues -/

theorem sameWaits_addCharge (s : State) (n : PoolNo) (k : Nat) : SameWaits s (s.addCharge n k) :=
  .of_tables (fun m => defined_addCharge n m k) (fun m => queue_addCharge n m k) (by rw [addCharge_frame])

theorem sameWaits_subCharge (s : State) (n : PoolNo) (k : Nat) : SameWaits s (s.subCharge n k) :=
  .of_tables (fun m => defined_subCharge n m k) (fun m => queue_subCharge n m k) (by rw [subCharge_frame])

theorem sameWaits_setGrantSlot (s : State) (i : GrantNo) (x : GrantSlot) : SameWaits s (s.setGrantSlot i x) :=
  .of_tables (fun _ => rfl) (fun _ => rfl) rfl

theorem sameWaits_createGrant (s : State) (i : GrantNo) (g : Grant) : SameWaits s (s.createGrant i g) :=
  ((s.sameWaits_setGrantSlot i _).trans (sameWaits_addCharge _ _ _)).trans (.of_tables (fun _ => rfl) (fun _ => rfl) rfl)

theorem sameWaits_growGrant (s : State) (i : GrantNo) (g : Grant) (v : Nat) : SameWaits s (s.growGrant i g v) :=
  (s.sameWaits_setGrantSlot i _).trans (sameWaits_addCharge _ _ _)

theorem sameWaits_shrinkGrant (s : State) (i : GrantNo) (g : Grant) (v : Nat) : SameWaits s (s.shrinkGrant i g v) :=
  (s.sameWaits_setGrantSlot i _).trans (sameWaits_subCharge _ _ _)

theorem sameWaits_freeGrant (s : State) (i : GrantNo) : SameWaits s (s.freeGrant i) := by
  unfold freeGrant
  split
  · exact .refl s
  · exact ((s.sameWaits_setGrantSlot i _).trans (sameWaits_subCharge _ _ _)).trans
      (.of_tables (fun _ => rfl) (fun _ => rfl) rfl)

/-! ## Operations of the grant table keep its laws -/

/-- Creating a grant in range keeps the laws of the grant table (R22, R27). -/
theorem grantTable_createGrant (h : GrantTableLaws s) (hi : s.grant? i = none) (h1 : 1 ≤ g.floor)
    (h2 : g.floor ≤ g.units) (h3 : g.units ≤ 65535) (hd : (s.pool g.pool).defined) :
    GrantTableLaws (s.createGrant i g) := by
  refine ⟨h.grant.set (sameWaits_createGrant s i g).defined ?_ (by rw [createGrant_frame]), age_createGrant h.age hi⟩
  obtain ⟨hlow, hhigh, _⟩ := h.grant i
  refine ⟨hlow, hhigh, ?_⟩
  rintro x ⟨⟩
  exact ⟨h1, h2, h3, hd⟩

theorem grantTable_growGrant (h : GrantTableLaws s) (hg : s.grant? i = some g) (h1 : g.units ≤ v) (h2 : v ≤ 65535) :
    GrantTableLaws (s.growGrant i g v) := by
  refine ⟨h.grant.set (sameWaits_growGrant s i g v).defined ?_ (by rw [growGrant_frame]), age_growGrant h.age hg⟩
  obtain ⟨hlow, hhigh, hgrant⟩ := h.grant i
  obtain ⟨hfloor, hle, _, hd⟩ := hgrant g hg
  refine ⟨hlow, hhigh, ?_⟩
  rintro x ⟨⟩
  exact ⟨hfloor, Nat.le_trans hle h1, h2, hd⟩

theorem grantTable_shrinkGrant (h : GrantTableLaws s) (hg : s.grant? i = some g) (h1 : 1 ≤ v) (h2 : v ≤ g.units) :
    GrantTableLaws (s.shrinkGrant i g v) := by
  refine ⟨h.grant.set (sameWaits_shrinkGrant s i g v).defined ?_ (by rw [shrinkGrant_frame]), age_shrinkGrant h.age hg⟩
  obtain ⟨hlow, hhigh, hgrant⟩ := h.grant i
  obtain ⟨hfloor, _, hmax, hd⟩ := hgrant g hg
  refine ⟨hlow, hhigh, ?_⟩
  rintro x ⟨⟩
  exact ⟨Nat.le_min.2 ⟨hfloor, h1⟩, Nat.min_le_right _ _, Nat.le_trans h2 hmax, hd⟩

theorem grantTable_freeGrant (h : GrantTableLaws s) (i : GrantNo) : GrantTableLaws (s.freeGrant i) := by
  cases hg : s.grant? i with
  | none => rwa [freeGrant_free hg]
  | some g =>
    refine ⟨h.grant.set (sameWaits_freeGrant s i).defined ?_ (by rw [freeGrant_live hg]), age_freeGrant h.age i⟩
    obtain ⟨hlow, hhigh, _⟩ := h.grant i
    obtain ⟨hlow', hhigh'⟩ := nextGeneration_range hlow hhigh
    refine ⟨hlow', hhigh', ?_⟩
    rintro x ⟨⟩

end State

/-! ## The laws of the wait table and the queues -/

/-- The laws of the wait table and the queues. -/
structure WaitTableLaws (s : State) : Prop where
  wait : WaitLaw s
  queue : QueueLaw s
  limit : WaitLimitLaw s

theorem holdsRecord_iff {s : State} {p : Port} {w : WaitNo} :
    holdsRecord s p w = true ↔ ∃ r ∈ s.record? w, r.port = p := by
  unfold holdsRecord
  simp only [Option.any_eq_true, beq_iff_eq]
  rfl

/-- The slots that hold a record of a port. -/
def recordSlots (s : State) (p : Port) : Finset WaitNo := Finset.univ.filter fun w => holdsRecord s p w

theorem mem_recordSlots {s : State} {p : Port} {w : WaitNo} : w ∈ recordSlots s p ↔ holdsRecord s p w = true := by
  simp [recordSlots]

theorem length_filter_filterMap {α β : Type} (f : α → Option β) (c : β → Bool) (l : List α) :
    ((l.filterMap f).filter c).length = (l.filter fun a => (f a).any c).length := by
  induction l with
  | nil => rfl
  | cons a rest ih =>
    cases hf : f a with
    | none => simpa [hf] using ih
    | some b => by_cases hc : c b <;> simp [hf, hc, ih]

/-- How many records a port owns (R42), counted by the slots that hold them. -/
theorem recordCount_eq (s : State) (p : Port) : s.recordCount p = (recordSlots s p).card := by
  refine (length_filter_filterMap s.record? (fun r => r.port == p) (List.finRange 32)).trans ?_
  show _ = (List.filter (fun w => decide (holdsRecord s p w = true)) (List.finRange 32)).length
  simp only [Bool.decide_eq_true]
  rfl

theorem recordCount_mono {s t : State} {p : Port} (h : ∀ w, holdsRecord t p w → holdsRecord s p w) :
    t.recordCount p ≤ s.recordCount p := by
  rw [recordCount_eq, recordCount_eq]
  exact Finset.card_le_card (Finset.monotone_filter_right _ fun w _ => h w)

namespace SameWaits

variable {s t : State}

theorem wait (h : SameWaits s t) (hl : WaitLaw s) : WaitLaw t := by
  intro w
  obtain ⟨hlow, hhigh, hrecord⟩ := hl w
  rw [h.generation w]
  refine ⟨hlow, hhigh, fun r hr => ?_⟩
  obtain ⟨q, hq, hqr⟩ := h.before hr
  obtain ⟨_, hpool, hfloor, hmax, _⟩ := WaitRecord.fields_of_undated hqr
  rw [← hfloor, ← hmax, ← hpool, h.defined]
  exact hrecord q hq

theorem queueLaw (h : SameWaits s t) (hl : QueueLaw s) : QueueLaw t := by
  intro n
  obtain ⟨hnodup, hmem, hsorted⟩ := hl n
  rw [h.queue n]
  have live (w : WaitNo) : (∃ r ∈ s.record? w, r.pool = n) ↔ ∃ r ∈ t.record? w, r.pool = n := by
    constructor
    · rintro ⟨r, hr, hn⟩
      obtain ⟨q, hq, hqr⟩ := h.symm.before hr
      exact ⟨q, hq, (WaitRecord.fields_of_undated hqr).2.1.trans hn⟩
    · rintro ⟨r, hr, hn⟩
      obtain ⟨q, hq, hqr⟩ := h.before hr
      exact ⟨q, hq, (WaitRecord.fields_of_undated hqr).2.1.trans hn⟩
  refine ⟨hnodup, fun w => (hmem w).trans (live w), hsorted.imp fun {v w} hvw r hr q hq => ?_⟩
  obtain ⟨r', hr', hrr⟩ := h.before hr
  obtain ⟨q', hq', hqq⟩ := h.before hq
  obtain ⟨_, _, _, _, hprior⟩ := WaitRecord.fields_of_undated hrr
  obtain ⟨_, _, _, _, hprior'⟩ := WaitRecord.fields_of_undated hqq
  rw [← hprior, ← hprior']
  exact hvw r' hr' q' hq'

theorem limit (h : SameWaits s t) (hl : WaitLimitLaw s) : WaitLimitLaw t := fun p => by
  refine Nat.le_trans (recordCount_mono fun w hw => ?_) (hl p)
  obtain ⟨r, hr, hp⟩ := holdsRecord_iff.1 hw
  obtain ⟨q, hq, hqr⟩ := h.before hr
  exact holdsRecord_iff.2 ⟨q, hq, (WaitRecord.fields_of_undated hqr).1.trans hp⟩

theorem laws (h : SameWaits s t) (hl : WaitTableLaws s) : WaitTableLaws t :=
  ⟨h.wait hl.wait, h.queueLaw hl.queue, h.limit hl.limit⟩

end SameWaits

end Sys2Proof.Machine
end

section
/-! Proofs, part 15: queueing and removing a record, by the priorities of its queue (R43, R44, R46). -/

namespace Sys2Proof.Machine

/-- Whether slot `w` holds a record of the priority `k` or a higher one: such records of a queue stand before a new one
(R43). -/
def standsAhead (s : State) (k : Fin 4) (w : WaitNo) : Bool := ((s.record? w).map WaitRecord.priority).any (· ≤ k)

theorem standsAhead_iff {s : State} {k : Fin 4} {w : WaitNo} {r : WaitRecord} (hr : s.record? w = some r) :
    standsAhead s k w = true ↔ r.priority ≤ k := by simp [standsAhead, hr]

/-- A list in the order of priority: what stands ahead of a new record comes first, and all of it (R43). -/
theorem placeInQueue_eq_filter {s : State} (w : WaitNo) (k : Fin 4) {l : List WaitNo}
    (hlive : ∀ v ∈ l, ∃ r, s.record? v = some r)
    (hsorted : l.Pairwise fun i j => ∀ r ∈ s.record? i, ∀ q ∈ s.record? j, r.priority ≤ q.priority) :
    s.placeInQueue l w k = l.filter (standsAhead s k) ++ w :: l.filter fun v => !standsAhead s k v := by
  unfold State.placeInQueue
  induction l with
  | nil => rfl
  | cons v rest ih =>
    obtain ⟨hfirst, hrest⟩ := List.pairwise_cons.1 hsorted
    obtain ⟨r, hr⟩ := hlive v List.mem_cons_self
    have ih := ih (fun x hx => hlive x (List.mem_cons_of_mem v hx)) hrest
    by_cases hk : r.priority ≤ k
    · have hv := (standsAhead_iff hr).2 hk
      simp only [List.takeWhile_cons, List.dropWhile_cons, hr, hk, decide_true, if_true, List.filter_cons, hv]
      simpa using ih
    · have hnone : ∀ x ∈ v :: rest, standsAhead s k x = false := by
        intro x hx
        obtain ⟨q, hq⟩ := hlive x hx
        rw [← Bool.not_eq_true, standsAhead_iff hq]
        rcases List.mem_cons.1 hx with rfl | hx
        · rw [hr] at hq; cases hq; exact hk
        · exact fun hle => hk (Fin.le_trans (hfirst x hx r hr q hq) hle)
      rw [List.filter_eq_nil_iff.2 fun x hx => by simp [hnone x hx],
        List.filter_eq_self.2 fun x hx => by simp [hnone x hx]]
      simp [hr, hk]

/-- Where a new record is put in a lawful queue (R43, R44). -/
theorem QueueLaw.placeInQueue {s : State} (h : QueueLaw s) (n : PoolNo) (w : WaitNo) (k : Fin 4) :
    s.placeInQueue (s.pool n).queue w k =
      (s.pool n).queue.filter (standsAhead s k) ++ w :: (s.pool n).queue.filter fun v => !standsAhead s k v := by
  obtain ⟨_, hmem, hsorted⟩ := h n
  refine placeInQueue_eq_filter w k (fun v hv => ?_) hsorted
  obtain ⟨r, hr, _⟩ := (hmem v).1 hv
  exact ⟨r, hr⟩

/-- The range of one slot of the wait table (R39, R40): `defined` says which pools are defined. -/
def WaitSlotInRange (defined : PoolNo → Prop) (x : WaitSlot) : Prop :=
  1 ≤ x.generation ∧ x.generation ≤ Config.lastWaitGeneration ∧
    ∀ r ∈ x.record, 1 ≤ r.floor ∧ r.floor ≤ r.max ∧ r.max ≤ 65535 ∧ defined r.pool

/-- Putting a slot in range into the wait table keeps its ranges. -/
theorem WaitLaw.set {s t : State} (hl : WaitLaw s) (hd : ∀ n, (t.pool n).defined = (s.pool n).defined) {w : WaitNo}
    {x : WaitSlot} (hx : WaitSlotInRange (fun n => (s.pool n).defined) x) (ht : t.waits = s.waits.set w x) : WaitLaw t := by
  intro v
  have hv : t.waitSlot v = if v = w then x else s.waitSlot v := by
    simp only [State.waitSlot, ht, State.set_get]
  have hrange : WaitSlotInRange (fun n => (s.pool n).defined) (t.waitSlot v) := by
    rw [hv]; split
    · exact hx
    · exact hl v
  have hsame : (fun n => (t.pool n).defined = true) = fun n => (s.pool n).defined = true := by funext n; rw [hd n]
  rw [← hsame] at hrange
  exact hrange

namespace State

variable {s : State} {w : WaitNo} {r : WaitRecord}

/-! ## Removing a record -/

theorem pool_removeRecord (hr : s.record? w = some r) (n : PoolNo) :
    (s.removeRecord w).pool n =
      { s.pool n with queue := if n = r.pool then (s.pool n).queue.filter (· ≠ w) else (s.pool n).queue } := by
  rw [removeRecord_live hr]
  refine (set_get _ _ n _).trans ?_
  split
  · rename_i h; rw [h]
  · rfl

/-- A removal leaves the grant table and the age list. -/
theorem sameGrants_removeRecord (s : State) (w : WaitNo) : SameGrants s (s.removeRecord w) := by
  cases hr : s.record? w with
  | none => rw [removeRecord_free hr]; exact .refl s
  | some r =>
    refine .of_tables (fun n => by rw [pool_removeRecord hr]) ?_ ?_
    · rw [removeRecord_live hr]
    · rw [removeRecord_live hr]

/-- In a lawful queue the removed record stands nowhere but in its own pool's queue (R42, R46). -/
theorem queue_removeRecord (hq : QueueLaw s) (w : WaitNo) (n : PoolNo) :
    ((s.removeRecord w).pool n).queue = (s.pool n).queue.filter (· ≠ w) := by
  obtain ⟨_, hmem, _⟩ := hq n
  have elsewhere (h : ¬ ∃ r ∈ s.record? w, r.pool = n) : (s.pool n).queue = (s.pool n).queue.filter (· ≠ w) := by
    refine (List.filter_eq_self.2 fun v hv => ?_).symm
    have hne : v ≠ w := fun e => h ((hmem w).1 (e ▸ hv))
    simpa using hne
  cases hr : s.record? w with
  | none =>
    rw [removeRecord_free hr]
    exact elsewhere (by rw [hr]; simp)
  | some r =>
    rw [pool_removeRecord hr]
    split
    · rfl
    · rename_i hn
      exact elsewhere (by rw [hr]; simpa using Ne.symm hn)

theorem queueLaw_removeRecord (hq : QueueLaw s) (w : WaitNo) : QueueLaw (s.removeRecord w) := by
  intro n
  obtain ⟨hnodup, hmem, hsorted⟩ := hq n
  rw [queue_removeRecord hq]
  have before (v : WaitNo) (x : WaitRecord) (hx : (s.removeRecord w).record? v = some x) : s.record? v = some x := by
    rw [record?_removeRecord] at hx
    split at hx
    · cases hx
    · exact hx
  refine ⟨hnodup.filter _, fun v => ?_, (hsorted.imp fun {a b} hab x hx y hy =>
    hab x (before a x hx) y (before b y hy)).filter _⟩
  rw [List.mem_filter, hmem v, record?_removeRecord]
  by_cases hv : v = w <;> simp [hv]

theorem waitTable_removeRecord (h : WaitTableLaws s) (w : WaitNo) : WaitTableLaws (s.removeRecord w) := by
  refine ⟨?_, queueLaw_removeRecord h.queue w, fun p => ?_⟩
  · cases hr : s.record? w with
    | none => rw [removeRecord_free hr]; exact h.wait
    | some r =>
      refine h.wait.set (sameGrants_removeRecord s w).defined ?_ (by rw [removeRecord_live hr])
      obtain ⟨hlow, hhigh, _⟩ := h.wait w
      obtain ⟨hlow', hhigh'⟩ := nextGeneration_range hlow hhigh
      refine ⟨hlow', hhigh', ?_⟩
      rintro x ⟨⟩
  · refine Nat.le_trans (recordCount_mono fun v hv => ?_) (h.limit p)
    unfold holdsRecord at hv ⊢
    rw [record?_removeRecord] at hv
    split at hv
    · cases hv
    · exact hv

/-! ## Queueing a record -/

theorem record?_queueRecord (s : State) (w v : WaitNo) (r : WaitRecord) :
    (s.queueRecord w r).record? v = if v = w then some r else s.record? v := by
  rw [queueRecord_frame]
  unfold record? waitSlot
  simp only [set_get]
  split <;> rfl

theorem pool_queueRecord (s : State) (w : WaitNo) (r : WaitRecord) (n : PoolNo) :
    (s.queueRecord w r).pool n = { s.pool n with
      queue := if n = r.pool then s.placeInQueue (s.pool n).queue w r.priority else (s.pool n).queue } := by
  refine (pool_modPool _ _ _ _).trans ?_
  split
  · rename_i h; rw [h]; rfl
  · rfl

theorem sameGrants_queueRecord (s : State) (w : WaitNo) (r : WaitRecord) : SameGrants s (s.queueRecord w r) :=
  .of_tables (fun n => by rw [pool_queueRecord]) rfl rfl

/-- Queueing keeps every queue in the order of priority, each live record once in its own (R42, R43). -/
theorem queueLaw_queueRecord (hq : QueueLaw s) (hw : s.record? w = none) : QueueLaw (s.queueRecord w r) := by
  intro n
  obtain ⟨hnodup, hmem, hsorted⟩ := hq n
  have hnot : w ∉ (s.pool n).queue := fun h => by
    obtain ⟨x, hx, _⟩ := (hmem w).1 h
    rw [hw] at hx; cases hx
  have hself : (s.queueRecord w r).record? w = some r := by rw [record?_queueRecord, if_pos rfl]
  have hothers : ∀ v ∈ (s.pool n).queue, (s.queueRecord w r).record? v = s.record? v := fun v hv => by
    rw [record?_queueRecord, if_neg fun e : v = w => hnot (e ▸ hv)]
  have hsorted' : (s.pool n).queue.Pairwise fun i j =>
      ∀ x ∈ (s.queueRecord w r).record? i, ∀ y ∈ (s.queueRecord w r).record? j, x.priority ≤ y.priority :=
    hsorted.imp_of_mem fun {a b} ha hb hab => by rw [hothers a ha, hothers b hb]; exact hab
  have hmem' : ∀ v, (∃ x ∈ (s.queueRecord w r).record? v, x.pool = n) ↔
      (v = w ∧ r.pool = n) ∨ v ∈ (s.pool n).queue := fun v => by
    rw [hmem v, record?_queueRecord]
    by_cases hv : v = w
    · subst hv; simp [hw]
    · simp [hv]
  rw [pool_queueRecord]
  by_cases hn : n = r.pool
  · subst hn
    rw [if_pos rfl, hq.placeInQueue]
    have perm : ((s.pool r.pool).queue.filter (standsAhead s r.priority) ++
        w :: (s.pool r.pool).queue.filter fun v => !standsAhead s r.priority v).Perm (w :: (s.pool r.pool).queue) :=
      List.perm_middle.trans ((List.filter_append_perm _ _).cons w)
    refine ⟨perm.nodup_iff.2 (List.nodup_cons.2 ⟨hnot, hnodup⟩), fun v => ?_, ?_⟩
    · rw [perm.mem_iff, hmem' v, List.mem_cons]
      simp
    · have hahead : ∀ v ∈ (s.pool r.pool).queue.filter (standsAhead s r.priority),
          ∀ x ∈ (s.queueRecord w r).record? v, x.priority ≤ r.priority := fun v hv x hx => by
        obtain ⟨hv, hk⟩ := List.mem_filter.1 hv
        exact (standsAhead_iff (hothers v hv ▸ hx)).1 hk
      have hbehind : ∀ v ∈ (s.pool r.pool).queue.filter (fun v => !standsAhead s r.priority v),
          ∀ x ∈ (s.queueRecord w r).record? v, r.priority ≤ x.priority := fun v hv x hx => by
        obtain ⟨hv, hk⟩ := List.mem_filter.1 hv
        have hlt : ¬ x.priority ≤ r.priority := fun hle => by
          rw [(standsAhead_iff (hothers v hv ▸ hx)).2 hle] at hk; cases hk
        exact Fin.le_of_lt (Fin.not_le.1 hlt)
      refine List.pairwise_append.2 ⟨hsorted'.filter _, List.pairwise_cons.2 ⟨fun v hv x hx y hy => ?_,
        hsorted'.filter _⟩, fun a ha b hb x hx y hy => ?_⟩
      · rw [hself] at hx; cases hx
        exact hbehind v hv y hy
      · rcases List.mem_cons.1 hb with rfl | hb
        · rw [hself] at hy; cases hy
          exact hahead a ha x hx
        · exact Fin.le_trans (hahead a ha x hx) (hbehind b hb y hy)
  · rw [if_neg hn]
    refine ⟨hnodup, fun v => ?_, hsorted'⟩
    rw [hmem' v]
    simp [Ne.symm hn]

/-- A record in range, of a port that owns fewer than 8, may be queued in a FREE slot (R42, R44). -/
theorem waitTable_queueRecord (h : WaitTableLaws s) (hw : s.record? w = none) (h1 : 1 ≤ r.floor) (h2 : r.floor ≤ r.max)
    (h3 : r.max ≤ 65535) (hd : (s.pool r.pool).defined) (hlimit : s.recordCount r.port < Config.waitsPerPort) :
    WaitTableLaws (s.queueRecord w r) := by
  refine ⟨?_, queueLaw_queueRecord h.queue hw, fun p => ?_⟩
  · refine h.wait.set (sameGrants_queueRecord s w r).defined ?_ rfl
    obtain ⟨hlow, hhigh, _⟩ := h.wait w
    refine ⟨hlow, hhigh, ?_⟩
    rintro x ⟨⟩
    exact ⟨h1, h2, h3, hd⟩
  · by_cases hp : p = r.port
    · subst hp
      have hslots : recordSlots (s.queueRecord w r) r.port ⊆ insert w (recordSlots s r.port) := by
        intro v hv
        rw [Finset.mem_insert]
        rw [mem_recordSlots, holdsRecord, record?_queueRecord] at hv
        by_cases he : v = w
        · exact .inl he
        · rw [if_neg he] at hv; exact .inr (mem_recordSlots.2 hv)
      rw [recordCount_eq] at hlimit ⊢
      exact Nat.le_trans (Finset.card_le_card hslots) (Nat.le_trans (Finset.card_insert_le _ _) hlimit)
    · refine Nat.le_trans (recordCount_mono fun v hv => ?_) (h.limit p)
      unfold holdsRecord at hv ⊢
      rw [record?_queueRecord] at hv
      split at hv
      · exact absurd (by simpa using hv) (Ne.symm hp)
      · exact hv

end State

end Sys2Proof.Machine
end

section
/-! Proofs, part 16: every step keeps the laws of the tables (L4, L9, L11). -/

namespace Sys2Proof.Machine

/-- The laws of the grant table, the age list, the wait table and the queues. -/
structure TableLaws (s : State) : Prop where
  grants : GrantTableLaws s
  waits : WaitTableLaws s

/-! ## What leaves the tables as the laws see them -/

namespace State

variable (s : State)

theorem sameTables_setSession (p : Port) (x : Session) : SameTables s (s.setSession p x) := .of_tables rfl rfl rfl rfl
theorem sameTables_setWatch (p : Port) (m : Word) : SameTables s (s.setWatch p m) := .of_tables rfl rfl rfl rfl
theorem sameTables_setMark (n : PoolNo) (b : Bool) : SameTables s (s.setMark n b) := .of_tables rfl rfl rfl rfl
theorem sameTables_setTokens (m : Word) (x : Token) : SameTables s (s.setTokens m x) := .of_tables rfl rfl rfl rfl
theorem sameTables_post (p : Port) (x : Notice) : SameTables s (s.post p x) := .of_tables rfl rfl rfl rfl
theorem sameTables_modPort (p : Port) (f : PortCtl → PortCtl) : SameTables s (s.modPort p f) := .of_tables rfl rfl rfl rfl
theorem sameTables_replyWith (p : Port) (x : Status) (l : List Byte) : SameTables s (s.replyWith p x l) :=
  .of_tables rfl rfl rfl rfl
theorem sameTables_refuse (p : Port) (c : Command) (x : Status) : SameTables s (s.refuse p c x) :=
  s.sameTables_replyWith p x _

/-- Changing a pool's figures, but not whether it is defined nor its queue. -/
theorem sameTables_modPool (n : PoolNo) {f : Pool → Pool} (hd : ∀ q, (f q).defined = q.defined)
    (hq : ∀ q, (f q).queue = q.queue) : SameTables s (s.modPool n f) := by
  have hdefined (m : PoolNo) : ((s.modPool n f).pool m).defined = (s.pool m).defined := by
    rw [pool_modPool]
    split
    · rename_i h; rw [hd, h]
    · rfl
  have hqueue (m : PoolNo) : ((s.modPool n f).pool m).queue = (s.pool m).queue := by
    rw [pool_modPool]
    split
    · rename_i h; rw [hq, h]
    · rfl
  exact ⟨.of_tables hdefined rfl rfl, .of_tables hdefined hqueue rfl⟩

theorem sameTables_freeTokens (m : Word) : SameTables s (s.freeTokens m) := by
  obtain ⟨_, _, _, h⟩ := s.freeTokens_effect m
  rw [h]; exact .of_tables rfl rfl rfl rfl

theorem sameTables_detachBare : SameTables s s.detachBare := by
  obtain ⟨_, h⟩ := s.detachBare_effect
  rw [h]; exact .of_tables rfl rfl rfl rfl

theorem sameTables_closeIfDone : SameTables s s.closeIfDone := by
  rw [closeIfDone_eq]; exact .of_tables rfl rfl rfl rfl

/-- A CNF changes a grant's state alone. -/
theorem sameTables_confirm {i : GrantNo} {g : Grant} (hg : s.grant? i = some g) (x : GrantState) :
    SameTables s (s.putGrant i { g with state := x }) := by
  refine ⟨⟨fun _ => rfl, fun j => ?_, fun j => ?_, rfl⟩, s.sameWaits_setGrantSlot i _⟩
  · rw [putGrant, grantSlot_setGrantSlot]
    split
    · rename_i h; rw [h]
    · rfl
  · rw [grant?_putGrant]
    split
    · rename_i h; rw [h, hg]; rfl
    · rfl

/-! ## The tick -/

theorem sameTables_tickLease (p : Port) : SameTables s (s.tickLease p) := by
  refine .of_keepsCore ?_
  unfold KeepsCore tickLease
  split
  · dsimp only
    split <;> rfl
  · rfl

/-- A tick lowers a deadline; nothing else of a record moves (R58). -/
theorem sameTables_tickDeadline (w : WaitNo) : SameTables s (s.tickDeadline w) := by
  unfold tickDeadline
  split
  · exact .refl s
  · rename_i r hr
    split
    · rename_i k _
      have lowered : SameTables s
          (s.setWaitSlot w { s.waitSlot w with record := some { r with deadline := some k } }) := by
        refine ⟨.of_tables (fun _ => rfl) rfl rfl, ⟨fun _ => rfl, fun _ => rfl, fun v => ?_, fun v => ?_⟩⟩
        · rw [waitSlot_setWaitSlot]
          split
          · rename_i h; rw [h]
          · rfl
        · rw [record?, waitSlot_setWaitSlot]
          split
          · rename_i h; rw [h, hr]; rfl
          · rfl
      dsimp only
      split
      · exact lowered.trans (.of_tables rfl rfl rfl rfl)
      · exact lowered
    · exact .refl s

theorem sameTables_tickLine (level : Level) (g : SagGroup) : SameTables s (tickLine level s g) := by
  refine .of_keepsCore ?_
  unfold KeepsCore tickLine
  split
  · simp
  · split
    · simp
    · split
      · dsimp only
        split <;> simp
      · rfl

theorem sameTables_tickLines (a b : Level) : SameTables s (s.tickLines a b) := by
  unfold tickLines
  split
  · exact .refl s
  · exact (s.sameTables_tickLine a .a).trans (sameTables_tickLine _ b .b)

theorem sameTables_tickWindow : SameTables s s.tickWindow := by
  unfold tickWindow
  split
  · split
    · dsimp only
      split
      · exact .of_tables rfl rfl rfl rfl
      · exact .of_tables rfl rfl rfl rfl
    · exact .refl s
  · exact .refl s

theorem sameTables_tickAll (a b : Level) : SameTables s (s.tickAll a b) := by
  have settled : SameTables s s.settle := .of_keepsCore s.core_settle
  have leases := SameTables.foldl sameTables_tickLease (List.finRange 4) s.settle
  have deadlines := SameTables.foldl sameTables_tickDeadline (List.finRange 32) ((List.finRange 4).foldl tickLease s.settle)
  unfold tickAll
  dsimp only
  generalize (List.finRange 4).foldl tickLease s.settle = t at leases deadlines ⊢
  generalize (List.finRange 32).foldl tickDeadline t = u at deadlines ⊢
  exact (((settled.trans leases).trans deadlines).trans (u.sameTables_tickLines a b)).trans (sameTables_tickWindow _)

end State

/-! ## What keeps the laws -/

namespace TableLaws

variable {s : State}

theorem congr {t : State} (h : TableLaws s) (k : SameTables s t) : TableLaws t :=
  ⟨h.grants.congr k.grants, k.waits.laws h.waits⟩

theorem keepsCore {t : State} (k : KeepsCore s t) (h : TableLaws s) : TableLaws t := h.congr (.of_keepsCore k)

theorem refuse (h : TableLaws s) (p : Port) (c : Command) (x : Status) : TableLaws (s.refuse p c x) :=
  h.congr (s.sameTables_refuse p c x)

theorem replyWith (h : TableLaws s) (p : Port) (x : Status) (l : List Byte) : TableLaws (s.replyWith p x l) :=
  h.congr (s.sameTables_replyWith p x l)

theorem createGrant (h : TableLaws s) {i : GrantNo} {g : Grant} (hi : s.grant? i = none) (h1 : 1 ≤ g.floor)
    (h2 : g.floor ≤ g.units) (h3 : g.units ≤ 65535) (hd : (s.pool g.pool).defined) : TableLaws (s.createGrant i g) :=
  ⟨State.grantTable_createGrant h.grants hi h1 h2 h3 hd, (s.sameWaits_createGrant i g).laws h.waits⟩

theorem freeGrant (h : TableLaws s) (i : GrantNo) : TableLaws (s.freeGrant i) :=
  ⟨State.grantTable_freeGrant h.grants i, (s.sameWaits_freeGrant i).laws h.waits⟩

theorem shrinkGrant (h : TableLaws s) {i : GrantNo} {g : Grant} {v : Nat} (hg : s.grant? i = some g) (h1 : 1 ≤ v)
    (h2 : v ≤ g.units) : TableLaws (s.shrinkGrant i g v) :=
  ⟨State.grantTable_shrinkGrant h.grants hg h1 h2, (s.sameWaits_shrinkGrant i g v).laws h.waits⟩

theorem growGrant (h : TableLaws s) {i : GrantNo} {g : Grant} {v : Nat} (hg : s.grant? i = some g) (h1 : g.units ≤ v)
    (h2 : v ≤ 65535) : TableLaws (s.growGrant i g v) :=
  ⟨State.grantTable_growGrant h.grants hg h1 h2, (s.sameWaits_growGrant i g v).laws h.waits⟩

theorem removeRecord (h : TableLaws s) (w : WaitNo) : TableLaws (s.removeRecord w) :=
  ⟨h.grants.congr (s.sameGrants_removeRecord w), State.waitTable_removeRecord h.waits w⟩

/-- A pass grants a record no less than its floor and no more than its maximum (R9, R55). -/
theorem servicePass (h : TableLaws s) (roots : List PoolNo) : TableLaws (s.servicePass roots) := by
  refine State.servicePass_induct ?_ ?_ ?_ s roots h
  · exact fun t n b ht => ht.congr (t.sameTables_setMark n b)
  · exact fun t w r ht _ _ => (ht.removeRecord w).congr (State.sameTables_post _ _ _)
  · intro t w r i ht hr _ hi hfloor
    obtain ⟨_, _, hrecord⟩ := ht.waits.wait w
    obtain ⟨h1, _, h3, hd⟩ := hrecord r hr
    have granted := ht.createGrant (State.freeGrantSlot_eq_some.1 hi).1 (g := ⟨.active, r.port, r.pool, _, r.floor⟩)
      h1 hfloor (Nat.le_trans (Nat.min_le_left _ _) h3) hd
    exact (granted.removeRecord w).congr (State.sameTables_post _ _ _)

/-- A shed trims no grant below its floor (R89). -/
theorem shed (h : TableLaws s) (n : PoolNo) : TableLaws (s.shed n) := by
  refine State.shed_induct ?_ ?_ s n h
  · intro t i g v ht hg hfloor hv
    obtain ⟨_, _, hgrant⟩ := ht.grants.grant i
    obtain ⟨h1, _⟩ := hgrant g hg
    exact (ht.shrinkGrant hg (Nat.le_trans h1 hfloor) (Nat.le_of_lt hv)).congr (State.sameTables_post _ _ _)
  · exact fun t i g ht _ => (ht.freeGrant i).congr (State.sameTables_post _ _ _)

theorem releaseHoldings (h : TableLaws s) (p : Port) : TableLaws (s.releaseHoldings p) := by
  have records := foldl_keeps (P := TableLaws) (f := State.removeRecord) (fun _ w ht => removeRecord ht w)
    ((s.setWatch p 0).recordsOf p) (h.congr (s.sameTables_setWatch p 0))
  unfold State.releaseHoldings
  dsimp only
  generalize List.foldl State.removeRecord (s.setWatch p 0) _ = t at records ⊢
  have grants : TableLaws (t.freeGrants (t.grantsOf p)) :=
    foldl_keeps (P := TableLaws) (f := State.freeGrant) (fun _ i ht => freeGrant ht i) _ records
  exact grants.congr (State.sameTables_freeTokens _ _)

theorem lapseSession (h : TableLaws s) (p : Port) (cause : LapseCause) : TableLaws (s.lapseSession p cause) :=
  have released := (h.releaseHoldings p).congr (State.sameTables_setSession _ p _)
  have told := (released.congr (State.sameTables_modPort _ p _)).congr (State.sameTables_post _ p _)
  (told.congr (State.sameTables_closeIfDone _)).servicePass _

theorem detachSession (h : TableLaws s) (p : Port) : TableLaws (s.detachSession p) :=
  have released := (h.releaseHoldings p).congr (State.sameTables_setSession _ p _)
  ((released.congr (State.sameTables_modPort _ p _)).congr (State.sameTables_closeIfDone _)).servicePass _

theorem freeAndServe (h : TableLaws s) (i : GrantNo) (g : Grant) {told : State → State}
    (ht : ∀ t, SameTables t (told t)) : TableLaws (s.freeAndServe i g told) :=
  (((h.freeGrant i).congr (ht _)).congr (State.sameTables_closeIfDone _)).servicePass _

theorem endRecord (h : TableLaws s) (w : WaitNo) (r : WaitRecord) {told : State → State}
    (ht : ∀ t, SameTables t (told t)) : TableLaws (s.endRecord w r told) := by
  have ended : TableLaws (told (s.removeRecord w)) := (h.removeRecord w).congr (ht _)
  unfold State.endRecord
  dsimp only
  split
  · exact ended.servicePass _
  · exact ended

/-! ## Requests -/

theorem answerAtt (h : TableLaws s) (p : Port) (lease : Word) : TableLaws (s.answerAtt p lease) := by
  unfold State.answerAtt
  split
  · exact h.refuse p _ _
  · exact h.congr (.of_tables rfl rfl rfl rfl)

theorem queueRsv (h : TableLaws s) (p : Port) (tag pool : Byte) (n : PoolNo) (floor max wait : Word)
    (h1 : 1 ≤ floor.toNat) (h2 : floor.toNat ≤ max.toNat) (hd : (s.pool n).defined) :
    TableLaws (s.queueRsv p tag pool n floor max wait) := by
  unfold State.queueRsv
  split
  · exact h.refuse p _ _
  · rename_i w hw
    split
    · exact h.refuse p _ _
    · rename_i hlimit
      have queued : TableLaws (s.queueRecord w (s.recordOf p tag n floor max wait)) :=
        ⟨h.grants.congr (s.sameGrants_queueRecord w _),
          State.waitTable_queueRecord h.waits (State.freeWaitSlot_eq_some.1 hw).1 h1 h2 (Nat.le_of_lt_succ max.isLt) hd
            (Nat.lt_of_not_le hlimit)⟩
      refine TableLaws.replyWith ?_ p _ _
      unfold State.markIfFull
      split
      · exact queued.congr (State.sameTables_setMark _ _ _)
      · exact queued

theorem decideRsv (h : TableLaws s) (p : Port) (tag pool : Byte) (n : PoolNo) (floor max wait : Word)
    (h1 : 1 ≤ floor.toNat) (h2 : floor.toNat ≤ max.toNat) (hd : (s.pool n).defined) :
    TableLaws (s.decideRsv p tag pool n floor max wait) := by
  have queued := h.queueRsv p tag pool n floor max wait h1 h2 hd
  unfold State.decideRsv
  dsimp only
  split
  · rename_i i hi
    split
    · rename_i hfits
      rw [Bool.and_eq_true, decide_eq_true_iff] at hfits
      exact (h.createGrant (State.freeGrantSlot_eq_some.1 hi).1 h1 hfits.1
        (Nat.le_trans (Nat.min_le_left _ _) (Nat.le_of_lt_succ max.isLt)) hd).replyWith p _ _
    · split
      · exact h.refuse p _ _
      · exact queued
  · split
    · exact h.refuse p _ _
    · exact queued

theorem answerRsv (h : TableLaws s) (p : Port) (tag pool : Byte) (floor max wait : Word) :
    TableLaws (s.answerRsv p tag pool floor max wait) := by
  unfold State.answerRsv
  dsimp only
  split
  · exact h.refuse p _ _
  · split
    · exact h.refuse p _ _
    · rename_i n hn
      split
      · exact h.refuse p _ _
      · rename_i hpass
        have hvalue := firstFailure_none hpass _ (List.mem_cons_of_mem _ List.mem_cons_self)
        simp only [Bool.and_eq_true, decide_eq_true_iff] at hvalue
        exact h.decideRsv p tag pool n floor max wait hvalue.1 hvalue.2 (State.definedPool?_eq_some.1 hn).2

theorem answerAdj (h : TableLaws s) (p : Port) (handle units : Word) : TableLaws (s.answerAdj p handle units) := by
  unfold State.answerAdj
  dsimp only
  split
  · exact h.refuse p _ _
  · rename_i hunits
    have hpos : 1 ≤ units.toNat :=
      Nat.one_le_iff_ne_zero.2 fun hz => hunits (BitVec.eq_of_toNat_eq hz)
    split
    · exact h.refuse p _ _
    · rename_i i g hown
      obtain ⟨⟨hg, _, _⟩, rfl⟩ := State.ownGrant_eq_some.1 hown
      split
      · exact h.refuse _ _ _
      · unfold State.adjustGrant
        split
        · exact h.replyWith _ _ _
        · split
          · rename_i hlt
            exact ((h.shrinkGrant hg hpos (Nat.le_of_lt hlt)).servicePass _).replyWith _ _ _
          · rename_i hge
            split
            · exact h.refuse _ _ _
            · exact (h.growGrant hg (Nat.le_of_not_lt hge) (Nat.le_of_lt_succ units.isLt)).replyWith _ _ _

theorem answerRel (h : TableLaws s) (p : Port) (handle : Word) : TableLaws (s.answerRel p handle) := by
  unfold State.answerRel
  split
  · exact h.refuse p _ _
  · exact (h.freeAndServe _ _ .refl).replyWith p _ _

theorem answerCan (h : TableLaws s) (p : Port) (ticket : Word) : TableLaws (s.answerCan p ticket) := by
  unfold State.answerCan
  split
  · exact h.refuse p _ _
  · exact (h.endRecord _ _ .refl).replyWith p _ _

theorem answerCnf (h : TableLaws s) (p : Port) (handle : Word) : TableLaws (s.answerCnf p handle) := by
  unfold State.answerCnf
  dsimp only
  split
  · exact h.refuse p _ _
  · rename_i i g hown
    obtain ⟨⟨hg, _, _⟩, _⟩ := State.ownGrant_eq_some.1 hown
    split
    · exact h.refuse p _ _
    · exact ((h.congr (s.sameTables_confirm hg _)).congr (State.sameTables_closeIfDone _)).replyWith p _ _

theorem answerClm (h : TableLaws s) (p : Port) (mask : Word) (mode watch : Byte) :
    TableLaws (s.answerClm p mask mode watch) := by
  unfold State.answerClm
  split
  · exact h.refuse p _ _
  · exact h.congr (.of_tables rfl rfl rfl rfl)

theorem answerDrp (h : TableLaws s) (p : Port) (mask : Word) : TableLaws (s.answerDrp p mask) := by
  unfold State.answerDrp
  split
  · exact h.refuse p _ _
  · exact ((h.congr (s.sameTables_freeTokens _)).congr (State.sameTables_closeIfDone _)).replyWith p _ _

theorem answerCnt (h : TableLaws s) (p : Port) (mask : Word) : TableLaws (s.answerCnt p mask) := by
  unfold State.answerCnt
  split
  · exact h.refuse p _ _
  · exact (((h.congr (s.sameTables_setTokens _ _)).congr (State.sameTables_setWatch _ p _)).congr
      (State.sameTables_closeIfDone _)).replyWith p _ _

theorem answerUwt (h : TableLaws s) (p : Port) (mask : Word) : TableLaws (s.answerUwt p mask) := by
  unfold State.answerUwt
  split
  · exact h.refuse p _ _
  · exact (h.congr (s.sameTables_setWatch p _)).replyWith p _ _

theorem changeCapacity (h : TableLaws s) (n : PoolNo) (nominal derated : Nat) :
    TableLaws (s.changeCapacity n nominal derated) := by
  have recorded : TableLaws (s.recordCapacity n nominal derated) :=
    h.congr (s.sameTables_modPool n (fun _ => rfl) fun _ => rfl)
  unfold State.changeCapacity
  dsimp only
  rw [← State.recordCapacity]
  split
  · exact recorded.servicePass _
  · split
    · split
      · exact recorded
      · exact ((recorded.shed n).congr (State.sameTables_detachBare _)).congr (State.sameTables_closeIfDone _)
    · exact recorded

theorem answerScp (h : TableLaws s) (p : Port) (pool : Byte) (nominal derated : Word) :
    TableLaws (s.answerScp p pool nominal derated) := by
  unfold State.answerScp
  dsimp only
  split
  · exact h.refuse p _ _
  · split
    · exact h.refuse p _ _
    · split
      · exact h.refuse p _ _
      · exact (h.changeCapacity _ _ _).replyWith p _ _

theorem answerRvk (h : TableLaws s) (p : Port) (handle : Word) : TableLaws (s.answerRvk p handle) := by
  unfold State.answerRvk
  dsimp only
  split
  · exact h.refuse p _ _
  · split
    · exact h.refuse p _ _
    · refine (h.freeAndServe _ _ fun t => ?_).replyWith p _ _
      unfold State.tellRevoked
      split
      · exact t.sameTables_detachBare
      · exact (t.sameTables_post _ _).trans (State.sameTables_detachBare _)

theorem answerEvc (h : TableLaws s) (p : Port) (target : Byte) : TableLaws (s.answerEvc p target) := by
  unfold State.answerEvc
  dsimp only
  split
  · exact h.refuse p _ _
  · split
    · exact h.refuse p _ _
    · split
      · exact h.refuse p _ _
      · split
        · exact h.refuse p _ _
        · exact h.refuse p _ _
        · exact (h.lapseSession _ _).replyWith p _ _
        · exact (h.lapseSession _ _).replyWith p _ _

/-! ## Events -/

theorem takeExpiry (h : TableLaws s) (ticket : Nat) {t : State} (ht : s.takeExpiry ticket = some t) : TableLaws t := by
  have taken : TableLaws { s with expiryEvents := s.expiryEvents.erase ticket } := h.congr (.of_tables rfl rfl rfl rfl)
  unfold State.takeExpiry at ht
  dsimp only at ht
  split at ht
  · split at ht
    · cases ht; exact taken
    · split at ht
      · cases ht; exact taken.endRecord _ _ fun u => u.sameTables_post _ _
      · cases ht; exact taken
  · cases ht

theorem takeSagEvent (h : TableLaws s) (e : SagEvent) {effect : State → State}
    (he : ∀ u, TableLaws u → TableLaws (effect u)) {t : State} (ht : s.takeSagEvent e effect = some t) :
    TableLaws t := by
  unfold State.takeSagEvent at ht
  split at ht
  · cases ht
    exact he _ (h.congr (.of_tables rfl rfl rfl rfl))
  · cases ht

theorem takeLapse (h : TableLaws s) (p : Port) {t : State} (ht : s.takeLapse p = some t) : TableLaws t := by
  have taken (l : List HandedOn) := h.congr (s.sameTables_modPort p fun c => { c with handedOn := l })
  unfold State.takeLapse at ht
  split at ht
  · dsimp only at ht
    split at ht
    · cases ht; exact (taken _).lapseSession p _
    · cases ht; exact taken _
  · cases ht
  · cases ht

theorem derate (h : TableLaws s) (g : SagGroup) : TableLaws (s.derate g) := by
  have shedAll : TableLaws (((List.finRange 8).filter (s.inGroup g)).foldl State.deratePool s) :=
    foldl_keeps (fun t n ht => TableLaws.shed (ht.congr (t.sameTables_modPool n (fun _ => rfl) fun _ => rfl)) n) _ h
  exact (shedAll.congr (State.sameTables_detachBare _)).congr (State.sameTables_closeIfDone _)

theorem restore (h : TableLaws s) (g : SagGroup) : TableLaws (s.restore g) :=
  servicePass (foldl_keeps (fun t n ht => ht.congr (t.sameTables_modPool n (fun _ => rfl) fun _ => rfl)) _ h) _

theorem reclaimGrant (h : TableLaws s) (i : GrantNo) : TableLaws (s.reclaimGrant i) := by
  unfold State.reclaimGrant
  split
  · exact h
  · split
    · exact (h.freeGrant i).congr (State.sameTables_post _ _ _)
    · exact h.freeGrant i

theorem reclaimAudit (h : TableLaws s) : TableLaws s.reclaimAudit := by
  have reclaimed := foldl_keeps (P := TableLaws) (f := State.reclaimGrant) (fun _ i ht => reclaimGrant ht i)
    (s.ageList.filter s.isAudit) h
  unfold State.reclaimAudit
  dsimp only
  generalize List.foldl State.reclaimGrant s _ = t at reclaimed ⊢
  have closed : TableLaws { t.freeTokens t.allAuditMask with window := .closed } :=
    (reclaimed.congr (t.sameTables_freeTokens _)).congr (.of_tables rfl rfl rfl rfl)
  refine servicePass (foldl_keeps (fun u p hu => ?_) _ closed) _
  unfold State.endRecovery
  split
  · exact hu.congr (u.sameTables_setSession p _)
  · exact hu

theorem takeAuditEnd (h : TableLaws s) {t : State} (ht : s.takeAuditEnd = some t) : TableLaws t := by
  have taken : TableLaws { s with auditEndMade := false } := h.congr (.of_tables rfl rfl rfl rfl)
  unfold State.takeAuditEnd at ht
  dsimp only at ht
  split at ht
  · cases ht
    split
    · exact taken.reclaimAudit
    · exact taken
  · cases ht

/-! ## Starts -/

theorem of_coldTables {x : Profile} (h : ColdTables s x) : TableLaws s :=
  ⟨⟨h.grant, h.age⟩, ⟨h.wait, h.queue, fun p => by rw [h.recordCount_zero p]; exact Nat.zero_le _⟩⟩

/-- A warm start discards every record, its slot's generation advanced, and empties every queue (R65). -/
theorem discardRecords (h : TableLaws s) : TableLaws s.discardRecords := by
  have hpool (n : PoolNo) : s.discardRecords.pool n = { s.pool n with queue := [] } := State.tabulate_get _ n
  have hslot (w : WaitNo) : s.discardRecords.waitSlot w = match s.record? w with
      | some _ => { generation := nextGeneration Config.lastWaitGeneration (s.waitSlot w).generation, record := none }
      | none => s.waitSlot w := State.tabulate_get _ w
  have hnone (w : WaitNo) : s.discardRecords.record? w = none := by
    rw [State.record?, hslot w]
    cases hr : s.record? w with
    | some r => rfl
    | none => exact hr
  refine ⟨h.grants.congr (.of_tables (fun n => by rw [hpool n]) rfl rfl), fun w => ?_, fun n => ?_, fun p => ?_⟩
  · obtain ⟨hlow, hhigh, _⟩ := h.waits.wait w
    have hgen : 1 ≤ (s.discardRecords.waitSlot w).generation ∧
        (s.discardRecords.waitSlot w).generation ≤ Config.lastWaitGeneration := by
      rw [hslot w]
      cases s.record? w with
      | some r => exact nextGeneration_range hlow hhigh
      | none => exact ⟨hlow, hhigh⟩
    exact ⟨hgen.1, hgen.2, fun r hr => by rw [hnone w] at hr; cases hr⟩
  · rw [hpool n]
    refine ⟨List.nodup_nil, fun w => ⟨fun hw => absurd hw List.not_mem_nil, ?_⟩, List.Pairwise.nil⟩
    rintro ⟨r, hr, _⟩
    rw [hnone w] at hr; cases hr
  · have hcount : s.discardRecords.recordCount p ≤ s.recordCount p := recordCount_mono fun w hw => by
      rw [holdsRecord, hnone w] at hw; cases hw
    exact Nat.le_trans hcount (h.waits.limit p)

theorem warmTables (h : TableLaws s) : TableLaws s.warmTables := by
  have audit : SameTables s s.discardWork.grantsToAudit := by
    have hslot (i : GrantNo) : s.discardWork.grantsToAudit.grantSlot i =
        { s.grantSlot i with grant := (s.grant? i).map fun g => { g with state := .audit } } := State.tabulate_get _ i
    refine ⟨⟨fun _ => rfl, fun i => by rw [hslot i], fun i => ?_, rfl⟩, .of_tables (fun _ => rfl) (fun _ => rfl) rfl⟩
    rw [State.grant?, hslot i, Option.map_map]; rfl
  have tables := ((h.congr audit).congr (t := s.discardWork.grantsToAudit.tokensToAudit)
    (.of_tables rfl rfl rfl rfl)).discardRecords
  unfold State.warmTables
  dsimp only
  generalize s.discardWork.grantsToAudit.tokensToAudit.discardRecords = t at tables ⊢
  exact tables.congr (.of_tables rfl rfl rfl rfl)

theorem completeWarmStart (h : TableLaws s) (disturbed : Bool) : TableLaws (s.completeWarmStart disturbed) := by
  unfold State.completeWarmStart
  dsimp only
  split
  · exact (keepsCore s.core_beginStart h).warmTables
  · exact .of_coldTables (State.coldTables_cold _ _ _)

/-! ## Every step -/

/-- A core request whose effect keeps the laws keeps them. -/
theorem coreRequest (h : TableLaws s) {p : Port} {r : Request} {effect : State → State}
    (he : ∀ t, TableLaws t → TableLaws (effect t)) : Answers TableLaws (Machine.coreRequest s p r effect) :=
  coreRequest_keeps keepsCore he h

/-- A core request whose effect leaves the core's tables keeps the laws. -/
theorem coreQuery (h : TableLaws s) {p : Port} {r : Request} {effect : State → State}
    (he : ∀ t, KeepsCore t (effect t)) : Answers TableLaws (Machine.coreRequest s p r effect) :=
  h.coreRequest fun t ht => keepsCore (he t) ht

theorem coreEvent (h : TableLaws s) {event : State → Option State}
    (he : ∀ t u, TableLaws t → event t = some u → TableLaws u) : Answers TableLaws (Machine.coreEvent s event) :=
  coreEvent_keeps keepsCore he h

/-- Every row of the table keeps the laws of the tables. -/
theorem exec (h : TableLaws s) (c : Instr) : Answers TableLaws (exec c s) := by
  cases hc : outsideCore c with
  | true => exact (exec_outsideCore hc s).mono fun _ ht => keepsCore ht h
  | false =>
    cases c with
    | att p tag lease => exact h.coreRequest fun _ ht => ht.answerAtt p lease
    | det p tag => exact h.coreRequest fun _ ht => (ht.detachSession p).replyWith p _ _
    | rsv p tag pool floor max wait => exact h.coreRequest fun _ ht => ht.answerRsv p tag pool floor max wait
    | adj p tag handle units => exact h.coreRequest fun _ ht => ht.answerAdj p handle units
    | rel p tag handle => exact h.coreRequest fun _ ht => ht.answerRel p handle
    | can p tag ticket => exact h.coreRequest fun _ ht => ht.answerCan p ticket
    | cnf p tag handle => exact h.coreRequest fun _ ht => ht.answerCnf p handle
    | qgr p tag handle => exact h.coreQuery fun t => t.keepsCore_answerQgr p handle
    | qpl p tag pool => exact h.coreQuery fun t => t.keepsCore_answerQpl p pool
    | qpt p tag => exact h.coreQuery fun t => t.keepsCore_answerQpt p
    | qdv p tag => exact h.coreQuery fun t => t.core_replyWith p _ _
    | clm p tag mask mode watch => exact h.coreRequest fun _ ht => ht.answerClm p mask mode watch
    | drp p tag mask => exact h.coreRequest fun _ ht => ht.answerDrp p mask
    | cnt p tag mask => exact h.coreRequest fun _ ht => ht.answerCnt p mask
    | uwt p tag mask => exact h.coreRequest fun _ ht => ht.answerUwt p mask
    | scp p tag pool nominal derated => exact h.coreRequest fun _ ht => ht.answerScp p pool nominal derated
    | rvk p tag handle => exact h.coreRequest fun _ ht => ht.answerRvk p handle
    | evc p tag target => exact h.coreRequest fun _ ht => ht.answerEvc p target
    | rsr p tag => exact h.coreQuery fun t => t.keepsCore_answerRsr p
    | srd p tag slot block =>
      exact h.coreQuery fun t => t.keepsCore_inStore p _ fun u => u.keepsCore_answerSrd p slot block
    | stg p tag block data =>
      exact h.coreQuery fun t => t.keepsCore_inStore p _ fun u => u.keepsCore_answerStg p block data
    | chk p tag => exact h.coreQuery fun t => t.keepsCore_inStore p _ fun u => u.keepsCore_answerChk p
    | sel p tag => exact h.coreQuery fun t => t.keepsCore_inStore p _ fun u => u.keepsCore_answerSel p
    | lapse p => exact h.coreEvent fun _ _ ht hu => ht.takeLapse p hu
    | expiryEvent ticket => exact h.coreEvent fun _ _ ht hu => ht.takeExpiry _ hu
    | derateEvent g => exact h.coreEvent fun _ _ ht hu => ht.takeSagEvent _ (fun _ hv => hv.derate g) hu
    | restoreEvent g => exact h.coreEvent fun _ _ ht hu => ht.takeSagEvent _ (fun _ hv => hv.restore g) hu
    | auditEnd => exact h.coreEvent fun _ _ ht hu => ht.takeAuditEnd hu
    | tick lines disturbed =>
      show Answers TableLaws (execTick lines disturbed s)
      unfold execTick
      split
      · exact .next (keepsCore (State.keepsCore_disturbed _ _) (h.congr (s.sameTables_tickAll _ _)))
      · exact .next h
    | warmStart disturbed =>
      show Answers TableLaws (execWarmStart disturbed s)
      unfold execWarmStart
      split
      · exact .next (h.completeWarmStart disturbed)
      · exact .next h
    | coldStart prog =>
      show Answers TableLaws (execColdStart prog s)
      unfold execColdStart
      split
      · exact .next (.of_coldTables (State.coldTables_cold _ _ _))
      · exact .next h
    | _ => exact absurd hc Bool.false_ne_true.symm

theorem step (h : TableLaws s) : Answers TableLaws (step s) := by
  unfold Machine.step
  split
  · exact .next h
  · rename_i rest _
    exact exec (s := { s with pending := rest }) (h.congr (.of_tables rfl rfl rfl rfl)) _

end TableLaws

/-- Settles O56: the laws are kept by each thing that a work item, a tick or a start does to the tables, and nothing else
touches the tables (`exec_outsideCore`). -/
theorem everyStepKeepsTableLaws : Obligations.EveryStepKeepsTableLaws := by
  intro s t hstep hgrant hage hwait hqueue hlimit
  have laws : TableLaws s := ⟨⟨hgrant, hage⟩, ⟨hwait, hqueue, hlimit⟩⟩
  obtain ⟨⟨hgrant', hage'⟩, ⟨hwait', hqueue', hlimit'⟩⟩ := laws.step t hstep
  exact ⟨hgrant', hage', hwait', hqueue', hlimit'⟩

end Sys2Proof.Machine
end

section
/-! Proofs, part 17: RSV not granted at once, ADJ to fewer units, and CNF (R179, R180, R183). -/

namespace Sys2Proof.Machine

/-! ## RSV that waits -/

/-- The pool can grant the floor at once, and no waiting record stands ahead (R9, R10). -/
def RsvFits (t : State) (p : Port) (n : PoolNo) (floor max : Word) : Prop :=
  floor.toNat ≤ min max.toNat (min (t.available n) (t.quota p n - t.held p n)) ∧ AheadRule t p n

namespace State

variable {t : State} {p : Port} {tag pool : Byte} {floor max wait : Word} {n : PoolNo}

theorem rsvFits_iff :
    (decide (floor.toNat ≤ t.grantable p n max.toNat) && t.aheadPasses p n) = true ↔ RsvFits t p n floor max := by
  rw [Bool.and_eq_true, decide_eq_true_iff, aheadPasses_iff]
  rfl

theorem decideRsv_noRoom (hw : wait = 0) (hf : ¬ RsvFits t p n floor max) :
    t.decideRsv p tag pool n floor max wait = refusedWith t p .noRoom 6 := by
  rw [← rsvFits_iff] at hf
  unfold decideRsv
  simp only [hf, hw, if_true]
  split <;> rfl

theorem decideRsv_tableFull (hw : wait = 0) (hf : RsvFits t p n floor max) (hfull : t.freeGrantSlot = none) :
    t.decideRsv p tag pool n floor max wait = refusedWith t p .tableFull 6 := by
  rw [← rsvFits_iff] at hf
  unfold decideRsv
  simp only [hf, hw, hfull, if_true]
  rfl

theorem decideRsv_queues (hw : wait ≠ 0) (h : ¬ RsvFits t p n floor max ∨ t.freeGrantSlot = none) :
    t.decideRsv p tag pool n floor max wait = t.queueRsv p tag pool n floor max wait := by
  rw [← rsvFits_iff] at h
  unfold decideRsv
  cases hfree : t.freeGrantSlot with
  | none => simp only [hw, if_false]
  | some i =>
    have hf := h.resolve_right (by rw [hfree]; exact Option.some_ne_none i)
    simp only [hf, hw, if_false]
    rfl

theorem queueRsv_queueFull (h : t.freeWaitSlot = none ∨ 8 ≤ t.recordCount p) :
    t.queueRsv p tag pool n floor max wait = refusedWith t p .queueFull 6 := by
  unfold queueRsv
  cases hfree : t.freeWaitSlot with
  | none => rfl
  | some w =>
    have hcount := h.resolve_left (by rw [hfree]; exact Option.some_ne_none w)
    exact if_pos hcount

theorem queueRsv_queues {w : WaitNo} (hw : t.freeWaitSlot = some w) (hcount : t.recordCount p < 8) :
    t.queueRsv p tag pool n floor max wait =
      answered ((t.queueRecord w (t.recordOf p tag n floor max wait)).markIfFull n) p .queued
        (wordField 0 ++ wordField 0 ++ wordField ((t.waitSlot w).generation * 32 + w.val)) := by
  unfold queueRsv
  rw [hw]
  exact if_neg (Nat.not_le.2 hcount)

/-- The slot-wait mark is set exactly when the grant table is full (R28). -/
theorem markIfFull_eq {full : Bool} (hfull : full = true ↔ ∀ i, (t.grant? i).isSome) (n : PoolNo) :
    t.markIfFull n = if full then t.setMark (t.rootOf n) true else t := by
  unfold markIfFull
  cases full with
  | true => rw [freeGrantSlot_eq_none.2 (hfull.1 rfl)]; rfl
  | false =>
    rw [if_neg fun h => Bool.false_ne_true (hfull.2 (freeGrantSlot_eq_none.1 (Option.isNone_iff_eq_none.1 h)))]
    rfl

/-- The deadline of a queued record: the wait field 65535 asks for none (R44, R174). -/
theorem recordOf_eq : t.recordOf p tag n floor max wait =
    { port := p, pool := n, floor := floor.toNat, max := max.toNat, priority := (t.portProfile p).priority
      deadline := if wait.toNat = 65535 then none else some wait.toNat, tag := tag } := by
  have hwait : wait = Config.unlimitedWait ↔ wait.toNat = 65535 := by rw [← BitVec.toNat_inj]; rfl
  unfold recordOf
  simp only [hwait]

/-- Queueing a record in a lawful queue, and marking its family if the grant table is full (R28, R43, R44). -/
theorem queueRecord_markIfFull {full : Bool} (hfull : full = true ↔ ∀ i, (t.grant? i).isSome) (hq : QueueLaw t)
    (w : WaitNo) (r : WaitRecord) :
    (t.queueRecord w r).markIfFull r.pool = { t with
      waits := t.waits.set w { generation := (t.waitSlot w).generation, record := some r }
      pools := t.pools.set r.pool { t.pool r.pool with
        queue := (t.pool r.pool).queue.filter (standsAhead t r.priority) ++
          w :: (t.pool r.pool).queue.filter fun v => !standsAhead t r.priority v }
      marks := if full then t.marks.set (t.rootOf r.pool) true else t.marks } := by
  have hroot : (t.queueRecord w r).rootOf r.pool = t.rootOf r.pool := by
    unfold rootOf
    rw [pool_queueRecord]
  rw [markIfFull_eq (t := t.queueRecord w r) hfull, hroot, ← hq.placeInQueue]
  cases full <;> rfl

end State

/-- Settles O24: the decision of R179 refuses or queues, and a lawful queue takes the record behind those of equal or higher
priority (`QueueLaw.placeInQueue`). -/
theorem reserveWaitsOrIsRefused : Obligations.ReserveWaitsOrIsRefused := by
  intro s t p tag pool floor max wait n full h ha hpass hfull fits
  rw [exec_rsv_attached h ha, State.answerRsv_passes hpass]
  have hnone : full = true → t.freeGrantSlot = none := fun hf => State.freeGrantSlot_eq_none.2 (hfull.1 hf)
  have hqueues (h : ¬ fits ∨ full = true) : ¬ RsvFits t p n floor max ∨ t.freeGrantSlot = none := h.imp id hnone
  refine ⟨fun hw hf => ?_, fun hw hf hfl => ?_, fun hw hfit hcount => ?_, fun w hw hfit hcount hwn hlow hq => ?_⟩
  · rw [State.decideRsv_noRoom hw hf]
  · rw [State.decideRsv_tableFull hw hf (hnone hfl)]
  · rw [State.decideRsv_queues hw (hqueues hfit),
      State.queueRsv_queueFull (hcount.imp_left State.freeWaitSlot_eq_none.2)]
  · rw [State.decideRsv_queues hw (hqueues hfit),
      State.queueRsv_queues (State.freeWaitSlot_eq_some.2 ⟨hwn, hlow⟩) hcount, State.recordOf_eq,
      State.queueRecord_markIfFull hfull hq]
    rfl

/-! ## ADJ to fewer units -/

/-- From a lawful family structure a shrink moves the charged sums of the grant's pool and root (R5, R31). -/
theorem State.chargeMoves_shrinkGrant {t : State} (hf : FamilyLaw t) (i : GrantNo) (g : Grant) (v : Nat) :
    ChargeMoves t (t.shrinkGrant i g v) g.pool (· - (g.units - v)) := fun m =>
  pool_subCharge (t.putGrant i { g with units := v, floor := min g.floor v }) g.pool m (g.units - v)
    (parent_ne_self hf g.pool)

theorem State.adjustGrant_shrink {t : State} {p : Port} {handle units : Word} {i : GrantNo} {g : Grant}
    (h : units.toNat < g.units) : t.adjustGrant p (.adj handle units) i g units.toNat =
      answered ((t.shrinkGrant i g units.toNat).servicePass [t.rootOf g.pool]) p .ok
        (wordField units.toNat ++ wordField (min g.floor units.toNat)) := by
  unfold adjustGrant
  rw [if_neg (Nat.ne_of_lt h), if_pos h]
  rfl

/-- Settles O26: the shrink of R31 and the pass over the family. -/
theorem adjustShrinksGrant : Obligations.AdjustShrinksGrant := by
  intro s t p tag handle units i g h ha hf hz hn hp hg hlt
  have hexec : exec (.adj p tag handle units) s = .next (t.answerAdj p handle units) :=
    coreRequest_attached h ha fun u => u.answerAdj p handle units
  refine ⟨t.shrinkGrant i g units.toNat, _, ?_, State.chargeMoves_shrinkGrant hf i g units.toNat,
    State.shrinkGrant_frame t i g units.toNat, rfl, State.onlyServes_servicePass _ _⟩
  rw [hexec, State.answerAdj_active hz (State.ownGrant_eq_some.2 ⟨hn, hp⟩) hg, State.adjustGrant_shrink hlt]

/-! ## CNF -/

section
variable {t : State} {p : Port} {handle : Word} {i : GrantNo} {g : Grant}

theorem State.answerCnf_badHandle (hown : t.ownGrant p handle = none) :
    t.answerCnf p handle = refusedWith t p .badHandle 4 := by
  unfold answerCnf; rw [hown]; rfl

theorem State.answerCnf_notAudit (hown : t.ownGrant p handle = some (i, g)) (hg : g.state = .active) :
    t.answerCnf p handle = refusedWith t p .notAudit 4 := by
  unfold answerCnf; rw [hown]; simp only [hg]; rfl

theorem State.answerCnf_confirms (hown : t.ownGrant p handle = some (i, g)) (hg : g.state = .audit) :
    t.answerCnf p handle = answered (t.putGrant i { g with state := .active }).closeIfDone p .ok
      (wordField g.units ++ wordField g.floor) := by
  unfold answerCnf; rw [hown]; simp only [hg]; rfl

end

/-- Settles O29: what a handle of the requester names decides; the window is closed by what the confirmed table holds. -/
theorem confirmMakesGrantActive : Obligations.ConfirmMakesGrantActive := by
  intro s t p tag handle h ha
  have hexec : exec (.cnf p tag handle) s = .next (t.answerCnf p handle) :=
    coreRequest_attached h ha fun u => u.answerCnf p handle
  rw [hexec]
  refine ⟨fun hn => by rw [State.answerCnf_badHandle (State.ownGrant_eq_none.2 hn)], fun i g hn hp => ?_⟩
  have hown : t.ownGrant p handle = some (i, g) := State.ownGrant_eq_some.2 ⟨hn, hp⟩
  refine ⟨fun hg => by rw [State.answerCnf_notAudit hown hg], fun hg => ?_⟩
  refine ⟨_, by rw [State.answerCnf_confirms hown hg], ?_⟩
  rw [State.closeIfDone_eq]
  rfl

end Sys2Proof.Machine
end

section
/-! Proofs, part 18: AUDIT holdings, what a pass leaves of grants and notices, and the frame of a release. -/

namespace Sys2Proof.Machine

namespace State

variable {s : State}

/-! ## AUDIT holdings -/

theorem mem_liveGrants {g : Grant} : g ∈ s.liveGrants ↔ ∃ i, s.grant? i = some g := by
  simp [liveGrants]

theorem mask_ne_zero {m : Word} : (m != 0) = true ↔ ∃ n, names m n = true := by
  rw [bne_iff_ne]
  constructor
  · intro h
    by_contra hc
    refine h (mask_ext fun n => ?_)
    rw [names_zero, ← Bool.not_eq_true]
    exact fun hn => hc ⟨n, hn⟩
  · rintro ⟨n, hn⟩ rfl
    rw [names_zero] at hn; cases hn

/-- A port holds an AUDIT grant or token (R113). -/
theorem holdsAudit_iff {p : Port} : s.holdsAudit p = true ↔
    (∃ i, ∃ g ∈ s.grant? i, g.port = p ∧ g.state = .audit) ∨ ∃ n, s.token n = .audit p := by
  unfold holdsAudit hasAuditGrant
  rw [Bool.or_eq_true, mask_ne_zero, List.any_eq_true]
  refine or_congr ?_ ?_
  · simp only [mem_liveGrants, Bool.and_eq_true, beq_iff_eq, Option.mem_def]
    constructor
    · rintro ⟨g, ⟨i, hi⟩, h⟩; exact ⟨i, g, hi, h⟩
    · rintro ⟨i, g, hi, h⟩; exact ⟨g, ⟨i, hi⟩, h⟩
  · simp only [auditMask, names_maskOf, beq_iff_eq]

/-- An AUDIT grant or token exists (R137). -/
theorem anyAudit_iff : s.anyAudit = true ↔
    (∃ i, ∃ g ∈ s.grant? i, g.state = .audit) ∨ ∃ n p, s.token n = .audit p := by
  unfold anyAudit
  rw [List.any_eq_true]
  constructor
  · rintro ⟨p, _, h⟩
    rcases holdsAudit_iff.1 h with ⟨i, g, hg, _, ha⟩ | ⟨n, hn⟩
    · exact .inl ⟨i, g, hg, ha⟩
    · exact .inr ⟨n, p, hn⟩
  · rintro (⟨i, g, hg, ha⟩ | ⟨n, p, hn⟩)
    · exact ⟨g.port, List.mem_finRange _, holdsAudit_iff.2 (.inl ⟨i, g, hg, rfl, ha⟩)⟩
    · exact ⟨p, List.mem_finRange _, holdsAudit_iff.2 (.inr ⟨n, hn⟩)⟩

end State

/-! ## What a pass leaves of grants, records and notices -/

/-- From `s` to `t` no grant slot's generation moves, every new grant is an ACTIVE one of a port that had a record waiting,
no new record is queued, and no notice handed over is taken back. -/
structure PassKeeps (s t : State) : Prop where
  generation : ∀ i, (t.grantSlot i).generation = (s.grantSlot i).generation
  grant : ∀ i, ∀ g ∈ t.grant? i, s.grant? i = some g ∨ (g.state = .active ∧ ∃ w, ∃ r ∈ s.record? w, r.port = g.port)
  record : ∀ w, ∀ r ∈ t.record? w, s.record? w = some r
  transit : s.transit <+: t.transit

namespace State

variable (s : State)

theorem transit_removeRecord (w : WaitNo) : (s.removeRecord w).transit = s.transit := by
  cases hr : s.record? w with
  | none => rw [removeRecord_free hr]
  | some r => rw [removeRecord_live hr]

theorem grantSlot_removeRecord (w : WaitNo) (i : GrantNo) : (s.removeRecord w).grantSlot i = s.grantSlot i := by
  cases hr : s.record? w with
  | none => rw [removeRecord_free hr]
  | some r => rw [removeRecord_live hr]; rfl

theorem record?_of_removeRecord {w v : WaitNo} {r : WaitRecord} (h : (s.removeRecord w).record? v = some r) :
    s.record? v = some r := by
  rw [record?_removeRecord] at h
  split at h
  · cases h
  · exact h

theorem generation_createGrant (i j : GrantNo) (g : Grant) :
    ((s.createGrant i g).grantSlot j).generation = (s.grantSlot j).generation := by
  rw [createGrant_frame]
  refine (congrArg GrantSlot.generation (set_get s.grants i j _)).trans ?_
  split
  · rename_i h; rw [h]
  · rfl

theorem passKeeps_servicePass (roots : List PoolNo) : PassKeeps s (s.servicePass roots) := by
  refine servicePass_induct (P := PassKeeps s) ?_ ?_ ?_ s roots
    ⟨fun _ => rfl, fun _ _ h => .inl h, fun _ _ h => h, List.prefix_rfl⟩
  · exact fun t n b h => ⟨h.generation, h.grant, h.record, h.transit⟩
  · intro t w r h _ _
    refine ⟨fun i => ?_, fun i g hg => h.grant i g ?_, fun v x hx => h.record v x (t.record?_of_removeRecord hx), ?_⟩
    · exact (congrArg GrantSlot.generation (t.grantSlot_removeRecord w i)).trans (h.generation i)
    · exact (t.grant?_removeRecord w i).symm.trans hg
    · have hremoved : s.transit <+: (t.removeRecord w).transit := by rw [transit_removeRecord]; exact h.transit
      exact hremoved.trans (List.prefix_append _ _)
  · intro t w r i h hr _ _ _
    generalize hg : (⟨.active, r.port, r.pool, t.grantable r.port r.pool r.max, r.floor⟩ : Grant) = g
    have hport : g.port = r.port := by rw [← hg]
    have hgrant : t.grantRecord w r i (t.grantable r.port r.pool r.max) = ((t.createGrant i g).removeRecord w).post r.port
        (.granted (t.ticketOf w) (t.handleOf i) (t.grantable r.port r.pool r.max) r.tag) := by rw [← hg]; rfl
    have hwaits (v : WaitNo) : (t.createGrant i g).record? v = t.record? v := by rw [createGrant_frame]; rfl
    have htransit : (t.createGrant i g).transit = t.transit := by rw [createGrant_frame]
    rw [hgrant]
    refine ⟨fun j => ?_, fun j x hx => ?_, fun v x hx => h.record v x ?_, ?_⟩
    · exact (congrArg GrantSlot.generation (grantSlot_removeRecord _ w j)).trans
        ((t.generation_createGrant i j g).trans (h.generation j))
    · have hx : ((t.createGrant i g).removeRecord w).grant? j = some x := hx
      rw [grant?_removeRecord, grant?_createGrant] at hx
      split at hx
      · cases hx
        exact .inr ⟨by rw [← hg], w, r, h.record w r hr, hport.symm⟩
      · exact h.grant j x hx
    · exact (hwaits v).symm.trans (record?_of_removeRecord _ hx)
    · have hremoved : s.transit <+: ((t.createGrant i g).removeRecord w).transit := by
        rw [transit_removeRecord, htransit]; exact h.transit
      exact hremoved.trans (List.prefix_append _ _)

end State

namespace OnlyServes

variable {s t : State}

theorem sessions (h : OnlyServes s t) : t.sessions = s.sessions := by
  obtain ⟨hframe, _⟩ := h
  rw [hframe]

theorem tokens (h : OnlyServes s t) : t.tokens = s.tokens := by
  obtain ⟨hframe, _⟩ := h
  rw [hframe]

theorem watches (h : OnlyServes s t) : t.watches = s.watches := by
  obtain ⟨hframe, _⟩ := h
  rw [hframe]

theorem window (h : OnlyServes s t) : t.window = s.window := by
  obtain ⟨hframe, _⟩ := h
  rw [hframe]

theorem ports (h : OnlyServes s t) : t.ports = s.ports := by
  obtain ⟨hframe, _⟩ := h
  rw [hframe]

theorem token (h : OnlyServes s t) (n : TokenNo) : t.token n = s.token n := by simp only [State.token, h.tokens]

theorem watch (h : OnlyServes s t) (p : Port) : t.watch p = s.watch p := by simp only [State.watch, h.watches]

theorem session (h : OnlyServes s t) (p : Port) : t.session p = s.session p := by simp only [State.session, h.sessions]

theorem port (h : OnlyServes s t) (p : Port) : t.port p = s.port p := by simp only [State.port, h.ports]

end OnlyServes

/-- A pass neither makes nor ends an AUDIT holding (R38, R55). -/
theorem State.anyAudit_servicePass (s : State) (roots : List PoolNo) :
    (s.servicePass roots).anyAudit = s.anyAudit := by
  obtain ⟨_, _, hkeeps⟩ := s.onlyServes_servicePass roots
  have htoken := (s.onlyServes_servicePass roots).token
  have hgrant := (s.passKeeps_servicePass roots).grant
  generalize s.servicePass roots = t at hkeeps htoken hgrant
  rw [Bool.eq_iff_iff, anyAudit_iff, anyAudit_iff]
  simp only [htoken]
  refine or_congr_left ⟨fun ⟨i, g, hg, ha⟩ => ?_, fun ⟨i, g, hg, ha⟩ => ⟨i, g, hkeeps i g hg, ha⟩⟩
  rcases hgrant i g hg with h | ⟨h, _⟩
  · exact ⟨i, g, h, ha⟩
  · rw [h] at ha; cases ha

/-- A pass gives nothing to a port that holds nothing: it has no record that could be granted. -/
theorem HoldsNothing.servicePass {s : State} {p : Port} (h : HoldsNothing s p) (roots : List PoolNo) :
    HoldsNothing (s.servicePass roots) p := by
  obtain ⟨hgrants, hrecords, htokens, hwatch⟩ := h
  have hserves := s.onlyServes_servicePass roots
  have hkeeps := s.passKeeps_servicePass roots
  refine ⟨fun i g hg => ?_, fun w r hr => hrecords w r (hkeeps.record w r hr), fun n => ?_, ?_⟩
  · rcases hkeeps.grant i g hg with hg | ⟨_, w, r, hr, hp⟩
    · exact hgrants i g hg
    · rw [← hp]; exact hrecords w r hr
  · rw [hserves.token n]; exact htokens n
  · rw [hserves.watch p]; exact hwatch

/-! ## The frame of a release -/

namespace OnlyReleases

variable {s t u : State} {p : Option Port}

theorem trans (h : OnlyReleases s t p) (k : OnlyReleases t u p) : OnlyReleases s u p := by
  obtain ⟨hframe, hfig, hports⟩ := h
  obtain ⟨kframe, kfig, kports⟩ := k
  refine ⟨?_, hfig.trans kfig, fun q hq => (kports q hq).trans (hports q hq)⟩
  exact kframe.trans (congrArg (fun x : State => { x with
    pools := u.pools, grants := u.grants, ageList := u.ageList, waits := u.waits, marks := u.marks, tokens := u.tokens
    watches := u.watches, sessions := u.sessions, window := u.window, transit := u.transit, ports := u.ports }) hframe)

end OnlyReleases

theorem OnlyServes.releases {s t : State} (h : OnlyServes s t) (p : Option Port) : OnlyReleases s t p := by
  obtain ⟨hframe, hfig, _⟩ := id h
  refine ⟨?_, hfig, fun q _ => h.port q⟩
  rw [hframe]

theorem OnlySheds.releases {s t : State} (h : OnlySheds s t) (p : Option Port) : OnlyReleases s t p := by
  obtain ⟨hframe, hpools, _⟩ := h
  refine ⟨?_, fun n => ?_, fun q _ => ?_⟩
  · rw [hframe]
  · rw [hpools n]
  · rw [hframe]; rfl

end Sys2Proof.Machine
end

section
/-! Proofs, part 19: REL and RVK (R32, R33, R181, R193). -/

namespace Sys2Proof.Machine

/-- The window after work looks at what AUDIT holdings the work left, and at the window before it (R139). -/
theorem windowAfter_congr {s s' t t' : State} (hw : s.window = s'.window) (ha : t.anyAudit = t'.anyAudit) :
    windowAfter s t = windowAfter s' t' := by
  unfold windowAfter; rw [hw, ha]

namespace State

variable {t : State} {i : GrantNo} {g : Grant}

/-- Freeing a grant moves the charged sums of its pool and root (R5, R32). -/
theorem chargeMoves_freeGrant (hf : FamilyLaw t) (hg : t.grant? i = some g) :
    ChargeMoves t (t.freeGrant i) g.pool (· - g.units) := by
  intro m
  unfold freeGrant
  rw [hg]
  exact pool_subCharge (t.setGrantSlot i _) g.pool m g.units (parent_ne_self hf g.pool)

theorem keepFigures_freeGrant (t : State) (i : GrantNo) : PoolsKeepFigures t (t.freeGrant i) := fun n => by
  obtain ⟨_, hpools, _⟩ := t.onlySheds_freeGrant i
  rw [hpools n]

theorem answerRel_badHandle {p : Port} {handle : Word} (hown : t.ownGrant p handle = none) :
    t.answerRel p handle = refusedWith t p .badHandle 0 := by
  unfold answerRel; rw [hown]; rfl

theorem answerRel_frees {p : Port} {handle : Word} (hown : t.ownGrant p handle = some (i, g)) :
    t.answerRel p handle =
      answered ((t.freeGrant i).closeIfDone.servicePass (t.rootOf g.pool :: (List.finRange 8).filter t.mark)) p .ok [] := by
  unfold answerRel; rw [hown]; rfl

theorem answerRvk_noRight {p : Port} {handle : Word} (h : (t.portProfile p).supervise = false) :
    t.answerRvk p handle = refusedWith t p .noRight 0 := by
  unfold answerRvk; rw [h]; rfl

theorem answerRvk_badHandle {p : Port} {handle : Word} (h : (t.portProfile p).supervise = true)
    (hr : t.resolveHandle handle.toNat = none) : t.answerRvk p handle = refusedWith t p .badHandle 0 := by
  unfold answerRvk; rw [h, hr]; rfl

theorem answerRvk_frees {p : Port} {handle : Word} (h : (t.portProfile p).supervise = true)
    (hr : t.resolveHandle handle.toNat = some (i, g)) :
    t.answerRvk p handle =
      answered (((t.freeGrant i).tellRevoked p g handle.toNat).closeIfDone.servicePass
        (t.rootOf g.pool :: (List.finRange 8).filter t.mark)) p .ok [] := by
  unfold answerRvk; rw [h, hr]; rfl

end State

/-- The state before REL's pass: the grant freed and the window closed if none is left AUDIT. -/
theorem closeIfDone_freeGrant {t v : State} {i : GrantNo} {g : Grant} (hg : t.grant? i = some g)
    (hv : v = (t.freeGrant i).closeIfDone) : v = { t with
      pools := v.pools, ageList := t.ageList.filter (· ≠ i), window := windowAfter t v
      grants := t.grants.set i { generation := generationAfter 1023 (t.grantSlot i).generation, grant := none } } := by
  have hfree := State.freeGrant_live hg
  generalize t.freeGrant i = x at hfree hv
  rw [State.closeIfDone_eq] at hv
  have hwindow : windowAfter x x = windowAfter t v :=
    windowAfter_congr (by rw [hfree]) (by rw [hv]; rfl)
  rw [hwindow] at hv
  generalize windowAfter t v = y at hv ⊢
  rw [hv, hfree]
  rfl

/-- The state before RVK's pass: the grant freed, its owner told, and the consequences of R113 and R139 drawn. -/
theorem closeIfDone_tellRevoked {t v : State} {p : Port} {i : GrantNo} {g : Grant} {handle : Nat}
    (hg : t.grant? i = some g) (hv : v = ((t.freeGrant i).tellRevoked p g handle).closeIfDone) :
    (∀ q, v.session q = if (t.session q).state = .recovering ∧ v.holdsAudit q = false then
      { t.session q with state := .detached } else t.session q) ∧
    v = { t with
      pools := v.pools, ageList := t.ageList.filter (· ≠ i), window := windowAfter t v, sessions := v.sessions
      grants := t.grants.set i { generation := generationAfter 1023 (t.grantSlot i).generation, grant := none }
      transit := t.transit ++ if g.port = p then [] else [(g.port, .revoked handle .supervisor)] } := by
  have hfree := State.freeGrant_live hg
  unfold State.tellRevoked at hv
  generalize t.freeGrant i = x at hfree hv
  generalize hy : (if g.port = p then x else x.post g.port (.revoked handle .supervisor)) = y at hv
  have htold : y = { x with
      transit := x.transit ++ if g.port = p then [] else [(g.port, .revoked handle .supervisor)] } := by
    rw [← hy]
    split
    · rw [List.append_nil]
    · rfl
  obtain ⟨hsession, hframe⟩ := y.detachesBare_closeIfDone
  rw [← hv] at hsession hframe
  have hsessionY (q : Port) : y.session q = t.session q := by rw [htold, hfree]; rfl
  have hauditY (q : Port) : y.holdsAudit q = v.holdsAudit q := by rw [hframe]; rfl
  have hwindow : windowAfter y y = windowAfter t v :=
    windowAfter_congr (by rw [htold, hfree]) (by rw [hframe]; rfl)
  rw [hwindow] at hframe
  refine ⟨fun q => by rw [hsession q, hsessionY q, hauditY q], ?_⟩
  generalize windowAfter t v = z at hframe ⊢
  rw [hframe, htold, hfree]
  rfl

/-- Neither notice nor consequence of an RVK touches a pool. -/
theorem pools_tellRevoked (s : State) (p : Port) (g : Grant) (handle : Nat) :
    (s.tellRevoked p g handle).closeIfDone.pools = s.pools := by
  rw [State.closeIfDone_eq]
  unfold State.tellRevoked
  rw [(State.detachBare_effect _).2]
  split <;> rfl

/-- A pass keeps the notices that were handed over. -/
theorem State.mem_transit_servicePass {s : State} {x : Port × Notice} (h : x ∈ s.transit) (roots : List PoolNo) :
    x ∈ (s.servicePass roots).transit := (s.passKeeps_servicePass roots).transit.subset h

/-- What REL and RVK have done to `t` before their pass: the grant of slot `i` freed, and beside it sessions, the window and
notices handed over. -/
structure FreesGrant (t v : State) (i : GrantNo) (g : Grant) : Prop where
  live : t.grant? i = some g
  pools : v.pools = (t.freeGrant i).pools
  frame : v = { t with
    pools := v.pools, ageList := v.ageList, window := v.window, sessions := v.sessions, transit := v.transit
    grants := t.grants.set i { generation := generationAfter 1023 (t.grantSlot i).generation, grant := none } }

namespace FreesGrant

variable {t v : State} {i : GrantNo} {g : Grant}

theorem pool (h : FreesGrant t v i g) (n : PoolNo) : v.pool n = (t.freeGrant i).pool n := by simp only [State.pool, h.pools]

theorem chargeMoves (h : FreesGrant t v i g) (hf : FamilyLaw t) : ChargeMoves t v g.pool (· - g.units) := fun m => by
  rw [h.pool m]; exact State.chargeMoves_freeGrant hf h.live m

theorem releases (h : FreesGrant t v i g) : OnlyReleases t v none := by
  refine ⟨?_, fun n => ?_, fun q _ => ?_⟩
  · rw [h.frame]
  · rw [h.pool n]; exact t.keepFigures_freeGrant i n
  · rw [h.frame]; rfl

/-- Whatever the pass then does, the slot's generation stays advanced and every other live grant stays (R32). -/
theorem freedThenServed (h : FreesGrant t v i g) (roots : List PoolNo) : FreedThenServed t (v.servicePass roots) i := by
  obtain ⟨_, _, hkeeps⟩ := v.onlyServes_servicePass roots
  have hslot (j : GrantNo) : v.grantSlot j =
      if j = i then { generation := generationAfter 1023 (t.grantSlot i).generation, grant := none }
      else t.grantSlot j := by
    rw [h.frame]; exact State.set_get _ _ _ _
  refine ⟨?_, fun j hj x hx => hkeeps j x ?_⟩
  · rw [(v.passKeeps_servicePass roots).generation, hslot, if_pos rfl]
    rfl
  · rw [State.grant?, hslot j, if_neg hj]
    exact hx

theorem tokens (h : FreesGrant t v i g) (roots : List PoolNo) : (v.servicePass roots).tokens = t.tokens := by
  rw [(v.onlyServes_servicePass roots).tokens, h.frame]

theorem watches (h : FreesGrant t v i g) (roots : List PoolNo) : (v.servicePass roots).watches = t.watches := by
  rw [(v.onlyServes_servicePass roots).watches, h.frame]

end FreesGrant

/-- Settles O27: the refusals by what the handle names; then the state before the pass, field by field, and what the pass
keeps of it. -/
theorem releaseAndRevokeFreeGrant : Obligations.ReleaseAndRevokeFreeGrant := by
  intro s t p tag handle ha
  have hrel (h : Taken s t p ⟨tag, .rel handle⟩) : exec (.rel p tag handle) s = .next (t.answerRel p handle) :=
    coreRequest_attached h ha fun u => u.answerRel p handle
  have hrvk (h : Taken s t p ⟨tag, .rvk handle⟩) : exec (.rvk p tag handle) s = .next (t.answerRvk p handle) :=
    coreRequest_attached h ha fun u => u.answerRvk p handle
  refine ⟨fun h hn => by rw [hrel h, State.answerRel_badHandle (State.ownGrant_eq_none.2 hn)],
    fun h hs => by rw [hrvk h, State.answerRvk_noRight hs],
    fun h hs hn => by rw [hrvk h, State.answerRvk_badHandle hs (State.resolveHandle_eq_none.2 hn)],
    fun i g hn => ⟨fun h hp => ?_, fun h hs => ?_⟩⟩
  · obtain ⟨hg, _, _⟩ := id hn
    generalize hv : (t.freeGrant i).closeIfDone = v
    generalize hroots : (t.rootOf g.pool :: (List.finRange 8).filter t.mark) = roots
    have hframe := closeIfDone_freeGrant hg hv.symm
    have hfrees : FreesGrant t v i g :=
      ⟨hg, by rw [← hv, State.closeIfDone_eq], by rw [hframe]⟩
    have hserves := v.onlyServes_servicePass roots
    refine ⟨v, v.servicePass roots, ?_, hfrees.chargeMoves, hframe, rfl, hserves,
      hfrees.releases.trans (hserves.releases none), hfrees.freedThenServed roots, ?_, hfrees.tokens roots,
      hfrees.watches roots⟩
    · rw [hrel h, State.answerRel_frees (State.ownGrant_eq_some.2 ⟨hn, hp⟩), hv, hroots]
    · rw [hserves.sessions, hframe]
  · obtain ⟨hg, _, _⟩ := id hn
    generalize hv : ((t.freeGrant i).tellRevoked p g handle.toNat).closeIfDone = v
    generalize hroots : (t.rootOf g.pool :: (List.finRange 8).filter t.mark) = roots
    obtain ⟨hsession, hframe⟩ := closeIfDone_tellRevoked hg hv.symm
    have hfrees : FreesGrant t v i g := ⟨hg, by rw [← hv, pools_tellRevoked], by rw [hframe]⟩
    have hserves := v.onlyServes_servicePass roots
    refine ⟨v, v.servicePass roots, ?_, hfrees.chargeMoves, hsession, hframe, rfl, hserves,
      hfrees.releases.trans (hserves.releases none), hfrees.freedThenServed roots, hfrees.tokens roots,
      hfrees.watches roots, fun hp => State.mem_transit_servicePass ?_ roots⟩
    · rw [hrvk h, State.answerRvk_frees hs (State.resolveHandle_eq_some.2 hn), hv, hroots]
    · rw [hframe]
      simp [hp]

end Sys2Proof.Machine
end

section
/-! Proofs, part 20: what a lapse and a detachment free: the effect of freeing lists of records and grants, and of all that
one port holds (R34, R46, R73, R108). -/

namespace Sys2Proof.Machine

/-- A wait slot after its record went: FREE, the generation advanced (R40, R46). -/
def WaitSlot.discarded (x : WaitSlot) : WaitSlot := { generation := generationAfter 2047 x.generation, record := none }

/-- A grant slot after its grant went: FREE, the generation advanced (R23, R32). -/
def GrantSlot.freed (x : GrantSlot) : GrantSlot := { generation := generationAfter 1023 x.generation, grant := none }

namespace State

/-! ## A list of records -/

theorem waitSlot_removeRecord (s : State) (i w : WaitNo) : (s.removeRecord i).waitSlot w =
    if w = i ∧ (s.record? w).isSome then (s.waitSlot w).discarded else s.waitSlot w := by
  cases hr : s.record? i with
  | none =>
    rw [removeRecord_free hr, if_neg]
    rintro ⟨rfl, h⟩
    rw [hr] at h; cases h
  | some r =>
    rw [removeRecord_live hr]
    refine (set_get _ _ w _).trans ?_
    by_cases hw : w = i
    · subst hw
      rw [if_pos rfl, if_pos ⟨rfl, by rw [hr]; rfl⟩]
      rfl
    · rw [if_neg hw, if_neg fun h => hw h.1]
      rfl

theorem removeRecord_frame (s : State) (i : WaitNo) :
    s.removeRecord i = { s with waits := (s.removeRecord i).waits, pools := (s.removeRecord i).pools } := by
  cases hr : s.record? i with
  | none => rw [removeRecord_free hr]
  | some r => rw [removeRecord_live hr]

/-- Removing a list of records (R46). -/
theorem removeRecords_effect (l : List WaitNo) : ∀ s : State,
    (∀ w, (l.foldl removeRecord s).waitSlot w =
      if w ∈ l ∧ (s.record? w).isSome then (s.waitSlot w).discarded else s.waitSlot w) ∧
    (QueueLaw s → ∀ n, ((l.foldl removeRecord s).pool n).queue = (s.pool n).queue.filter (· ∉ l)) ∧
    l.foldl removeRecord s = { s with
      waits := (l.foldl removeRecord s).waits, pools := (l.foldl removeRecord s).pools } := by
  induction l with
  | nil => intro s; exact ⟨fun w => by simp, fun _ n => by simp, rfl⟩
  | cons i rest ih =>
    intro s
    obtain ⟨hslot, hqueue, hframe⟩ := ih (s.removeRecord i)
    have hfirst := s.removeRecord_frame i
    rw [List.foldl_cons]
    generalize rest.foldl removeRecord (s.removeRecord i) = u at hslot hqueue hframe ⊢
    refine ⟨fun w => ?_, fun hq n => ?_, ?_⟩
    · rw [hslot w, waitSlot_removeRecord, record?_removeRecord]
      by_cases hw : w = i
      · simp [hw]
      · simp [hw]
    · rw [hqueue (queueLaw_removeRecord hq i) n, queue_removeRecord hq, List.filter_filter]
      refine List.filter_congr fun w _ => ?_
      by_cases hw : w = i <;> simp [hw]
    · exact hframe.trans (congrArg (fun x : State => { x with waits := u.waits, pools := u.pools }) hfirst)

/-! ## A list of grants -/

theorem grantSlot_freeGrant_freed (s : State) (i j : GrantNo) : (s.freeGrant i).grantSlot j =
    if j = i ∧ (s.grant? j).isSome then (s.grantSlot j).freed else s.grantSlot j := by
  cases hg : s.grant? i with
  | none =>
    rw [freeGrant_free hg, if_neg]
    rintro ⟨rfl, h⟩
    rw [hg] at h; cases h
  | some g =>
    rw [grantSlot_freeGrant hg]
    by_cases hj : j = i
    · subst hj
      rw [if_pos rfl, if_pos ⟨rfl, by rw [hg]; rfl⟩]
      rfl
    · rw [if_neg hj, if_neg fun h => hj h.1]

theorem freeGrant_frame (s : State) (i : GrantNo) : s.freeGrant i = { s with
    pools := (s.freeGrant i).pools, grants := (s.freeGrant i).grants, ageList := (s.freeGrant i).ageList } := by
  cases hg : s.grant? i with
  | none => rw [freeGrant_free hg]
  | some g => rw [freeGrant_live hg]

/-- The age list holds live grants alone, so a FREE slot is not in it (R26). -/
theorem ageList_freeGrant {s : State} (ha : AgeLaw s) (i : GrantNo) :
    (s.freeGrant i).ageList = s.ageList.filter (· ≠ i) := by
  cases hg : s.grant? i with
  | none =>
    rw [freeGrant_free hg]
    refine (List.filter_eq_self.2 fun j hj => ?_).symm
    have hne : j ≠ i := by
      rintro rfl
      rw [ha.2 j, hg] at hj; cases hj
    simpa using hne
  | some g => rw [freeGrant_live hg]

/-- Freeing a list of grants (R32, R34). -/
theorem freeGrants_effect (l : List GrantNo) : ∀ s : State,
    (∀ i, (s.freeGrants l).grantSlot i =
      if i ∈ l ∧ (s.grant? i).isSome then (s.grantSlot i).freed else s.grantSlot i) ∧
    (AgeLaw s → (s.freeGrants l).ageList = s.ageList.filter (· ∉ l)) ∧
    (FamilyLaw s → ChargeLaw s → ChargeLaw (s.freeGrants l)) ∧
    (∀ n, (s.freeGrants l).pool n = { s.pool n with charged := ((s.freeGrants l).pool n).charged }) ∧
    s.freeGrants l = { s with
      pools := (s.freeGrants l).pools, grants := (s.freeGrants l).grants, ageList := (s.freeGrants l).ageList } := by
  induction l with
  | nil =>
    intro s
    exact ⟨fun i => by simp [freeGrants], fun _ => by simp [freeGrants], fun _ h => h, fun _ => rfl, rfl⟩
  | cons i rest ih =>
    intro s
    obtain ⟨hslot, hage, hcharge, hpool, hframe⟩ := ih (s.freeGrant i)
    have hfirst := s.freeGrant_frame i
    obtain ⟨_, hpools, _⟩ := s.onlySheds_freeGrant i
    have hcons : s.freeGrants (i :: rest) = (s.freeGrant i).freeGrants rest := rfl
    rw [hcons]
    generalize (s.freeGrant i).freeGrants rest = u at hslot hage hcharge hpool hframe ⊢
    refine ⟨fun j => ?_, fun ha => ?_, fun hf hc => hcharge (family_freeGrant hf i) (charge_freeGrant hf hc i),
      fun n => by rw [hpool n, hpools n], ?_⟩
    · rw [hslot j, grantSlot_freeGrant_freed, grant?_freeGrant]
      by_cases hj : j = i <;> simp [hj]
    · rw [hage (age_freeGrant ha i), ageList_freeGrant ha, List.filter_filter]
      refine List.filter_congr fun j _ => ?_
      by_cases hj : j = i <;> simp [hj]
    · exact hframe.trans (congrArg
        (fun x : State => { x with pools := u.pools, grants := u.grants, ageList := u.ageList }) hfirst)

/-! ## What a port holds -/

variable {t : State} {p : Port}

theorem holdsGrant_iff {i : GrantNo} : holdsGrant t p i = true ↔ ∃ g ∈ t.grant? i, g.port = p := by
  unfold holdsGrant
  rw [Option.any_eq_true]
  simp only [beq_iff_eq]
  rfl

theorem mem_recordsOf {w : WaitNo} : w ∈ t.recordsOf p ↔ holdsRecord t p w = true := by
  unfold recordsOf holdsRecord
  rw [List.mem_filter]
  cases t.record? w <;> simp

/-- The age list names every grant of the port (R26, R34). -/
theorem mem_grantsOf (ha : AgeLaw t) {i : GrantNo} : i ∈ t.grantsOf p ↔ holdsGrant t p i = true := by
  unfold grantsOf holdsGrant
  rw [List.mem_filter, ha.2 i]
  cases t.grant? i <;> simp

theorem isSome_of_holdsRecord {w : WaitNo} (h : holdsRecord t p w = true) : (t.record? w).isSome := by
  obtain ⟨r, hr, _⟩ := holdsRecord_iff.1 h
  rw [Option.mem_def.1 hr]; rfl

theorem isSome_of_holdsGrant {i : GrantNo} (h : holdsGrant t p i = true) : (t.grant? i).isSome := by
  obtain ⟨g, hg, _⟩ := holdsGrant_iff.1 h
  rw [Option.mem_def.1 hg]; rfl

theorem heldMask_or_auditMask : t.heldMask p ||| t.auditMask p = tokensOf t p :=
  mask_ext fun n => by rw [names_or, heldMask, auditMask, tokensOf, names_maskOf, names_maskOf, names_maskOf]

theorem names_tokensOf {n : TokenNo} : names (tokensOf t p) n = true ↔ t.token n = .held p ∨ t.token n = .audit p := by
  rw [tokensOf, names_maskOf, Bool.or_eq_true, beq_iff_eq, beq_iff_eq]

/-- The families served when the grants of a list go: theirs and, if there is one, every marked family (R33, R34). -/
theorem mem_familiesOfFreed {l : List GrantNo} {P : Grant → Prop} (hl : ∀ i, i ∈ l ↔ ∃ g ∈ t.grant? i, P g) {n : PoolNo} :
    (n ∈ t.familiesOfGrants l ∨ n ∈ if l.isEmpty then [] else t.markedFamilies) ↔
      ∃ i, ∃ g ∈ t.grant? i, P g ∧ (t.rootOf g.pool = n ∨ t.mark n = true) := by
  have grants : n ∈ t.familiesOfGrants l ↔ ∃ i, ∃ g ∈ t.grant? i, P g ∧ t.rootOf g.pool = n := by
    unfold familiesOfGrants
    simp only [List.mem_filterMap, hl, Option.map_eq_some_iff]
    constructor
    · rintro ⟨i, ⟨g, hg, hp⟩, x, hx, hn⟩
      rw [Option.mem_def.1 hg] at hx; cases hx
      exact ⟨i, g, hg, hp, hn⟩
    · rintro ⟨i, g, hg, hp, hn⟩; exact ⟨i, ⟨g, hg, hp⟩, g, hg, hn⟩
  have marked : n ∈ (if l.isEmpty then [] else t.markedFamilies) ↔ ∃ i, ∃ g ∈ t.grant? i, P g ∧ t.mark n = true := by
    cases l with
    | nil =>
      exact ⟨fun h => absurd h List.not_mem_nil,
        fun ⟨i, g, hg, hp, _⟩ => absurd ((hl i).2 ⟨g, hg, hp⟩) List.not_mem_nil⟩
    | cons i rest =>
      obtain ⟨g, hg, hp⟩ := (hl i).1 List.mem_cons_self
      simp only [List.isEmpty_cons, markedFamilies]
      rw [if_neg Bool.false_ne_true, List.mem_filter]
      exact ⟨fun h => ⟨i, g, hg, hp, h.2⟩, fun ⟨_, _, _, _, h⟩ => ⟨List.mem_finRange n, h⟩⟩
  rw [grants, marked]
  constructor
  · rintro (⟨i, g, hg, hp, h⟩ | ⟨i, g, hg, hp, h⟩)
    · exact ⟨i, g, hg, hp, .inl h⟩
    · exact ⟨i, g, hg, hp, .inr h⟩
  · rintro ⟨i, g, hg, hp, h | h⟩
    · exact .inl ⟨i, g, hg, hp, h⟩
    · exact .inr ⟨i, g, hg, hp, h⟩

/-- The families a release serves (R33, R108 step 7). -/
theorem servesHoldings_familiesOfHoldings (ha : AgeLaw t) : ServesHoldings t p (t.familiesOfHoldings p) := by
  intro n
  have records : n ∈ t.familiesOfRecords (t.recordsOf p) ↔
      ∃ w, ∃ r ∈ t.record? w, r.port = p ∧ t.rootOf r.pool = n := by
    unfold familiesOfRecords
    simp only [List.mem_filterMap, mem_recordsOf, holdsRecord_iff, Option.map_eq_some_iff]
    constructor
    · rintro ⟨w, ⟨r, hr, hp⟩, x, hx, hn⟩
      rw [Option.mem_def.1 hr] at hx; cases hx
      exact ⟨w, r, hr, hp, hn⟩
    · rintro ⟨w, r, hr, hp, hn⟩; exact ⟨w, ⟨r, hr, hp⟩, r, hr, hn⟩
  unfold familiesOfHoldings
  rw [List.mem_append, List.mem_append, records, or_assoc,
    mem_familiesOfFreed fun i => (mem_grantsOf ha).trans holdsGrant_iff]

end State

end Sys2Proof.Machine
end

section
/-! Proofs, part 21: what a release of a port's holdings has done before its pass (R108 steps 1 to 4). -/

namespace Sys2Proof.Machine

namespace State

variable {t : State} {p : Port}

/-! ## Steps 1 to 4 of R108 -/

/-- Every record of the port is gone and its own watch set empty (R108 steps 1 and 2). -/
def dropRecords (t : State) (p : Port) : State := (t.recordsOf p).foldl removeRecord (t.setWatch p 0)

theorem releaseHoldings_eq : t.releaseHoldings p =
    ((t.dropRecords p).freeGrants (t.grantsOf p)).freeTokens (tokensOf t p) := by
  obtain ⟨_, _, hrecords⟩ := removeRecords_effect (t.recordsOf p) (t.setWatch p 0)
  have hgrants : (t.dropRecords p).grantsOf p = t.grantsOf p := by
    rw [dropRecords, hrecords]; rfl
  have htokens : tokensOf ((t.dropRecords p).freeGrants (t.grantsOf p)) p = tokensOf t p := by
    obtain ⟨_, _, _, _, hfree⟩ := freeGrants_effect (t.grantsOf p) (t.dropRecords p)
    rw [hfree, dropRecords, hrecords]; rfl
  rw [← htokens, ← heldMask_or_auditMask, ← hgrants]
  rfl

theorem dropRecords_effect (t : State) (p : Port) :
    (∀ w, (t.dropRecords p).waitSlot w =
      if holdsRecord t p w then (t.waitSlot w).discarded else t.waitSlot w) ∧
    (QueueLaw t → ∀ n, ((t.dropRecords p).pool n).queue = (t.pool n).queue.filter fun w => !holdsRecord t p w) ∧
    SameAccounts t (t.dropRecords p) ∧
    (∀ q, (t.dropRecords p).watch q = if q = p then 0 else t.watch q) ∧
    t.dropRecords p = { t with
      waits := (t.dropRecords p).waits, pools := (t.dropRecords p).pools, watches := (t.setWatch p 0).watches } := by
  obtain ⟨hslot, hqueue, hframe⟩ := removeRecords_effect (t.recordsOf p) (t.setWatch p 0)
  have hsame := (t.same_setWatch p 0).trans (.foldl same_removeRecord (t.recordsOf p) (t.setWatch p 0))
  rw [← dropRecords] at hslot hqueue hframe hsame
  have hmem (w : WaitNo) : (w ∈ t.recordsOf p ∧ (t.record? w).isSome = true) ↔ holdsRecord t p w = true :=
    ⟨fun h => mem_recordsOf.1 h.1, fun h => ⟨mem_recordsOf.2 h, isSome_of_holdsRecord h⟩⟩
  refine ⟨fun w => (hslot w).trans (if_congr (hmem w) rfl rfl), fun hq n => (hqueue hq n).trans ?_, hsame, fun q => ?_,
    by rw [hframe]; rfl⟩
  · refine List.filter_congr fun w _ => ?_
    rw [Bool.eq_iff_iff, decide_eq_true_iff, Bool.not_eq_true', ← Bool.not_eq_true, mem_recordsOf]
  · rw [hframe]; exact t.watch_setWatch p q 0

/-- What a release frees and touches (R108 steps 1 to 4). -/
theorem releaseHoldings_effect (ha : AgeLaw t) (p : Port) :
    FreesHoldings t (t.releaseHoldings p) p ∧
    (t.releaseHoldings p).transit = t.transit ++ tokenFreeNotices t (tokensOf t p) (· != p) ∧
    PoolsKeepFigures t (t.releaseHoldings p) ∧
    t.releaseHoldings p = { t with
      pools := (t.releaseHoldings p).pools, grants := (t.releaseHoldings p).grants
      ageList := (t.releaseHoldings p).ageList, waits := (t.releaseHoldings p).waits
      tokens := (t.releaseHoldings p).tokens, watches := (t.releaseHoldings p).watches
      transit := (t.releaseHoldings p).transit } := by
  rw [releaseHoldings_eq]
  obtain ⟨hwait, hqueue, hsame, hwatch, hframe⟩ := t.dropRecords_effect p
  generalize t.dropRecords p = u at hwait hqueue hsame hwatch hframe ⊢
  have hgrant (i : GrantNo) : u.grantSlot i = t.grantSlot i := by rw [hframe]; rfl
  obtain ⟨kslot, kage, kcharge, kpool, kframe⟩ := freeGrants_effect (t.grantsOf p) u
  generalize u.freeGrants (t.grantsOf p) = v at kslot kage kcharge kpool kframe ⊢
  obtain ⟨mtoken, mwatch, mtransit, mframe⟩ := v.freeTokens_effect (tokensOf t p)
  have msame := v.same_freeTokens (tokensOf t p)
  generalize v.freeTokens (tokensOf t p) = w at mtoken mwatch mtransit mframe msame ⊢
  have hmem (i : GrantNo) : (i ∈ t.grantsOf p ∧ (u.grant? i).isSome = true) ↔ holdsGrant t p i = true := by
    rw [grant?, hgrant i]
    exact ⟨fun h => (mem_grantsOf ha).1 h.1, fun h => ⟨(mem_grantsOf ha).2 h, isSome_of_holdsGrant h⟩⟩
  have hvwatch (q : Port) : v.watch q = if q = p then 0 else t.watch q := by rw [kframe]; exact hwatch q
  have hvtoken (n : TokenNo) : v.token n = t.token n := by rw [kframe, hframe]; rfl
  have hvtransit : v.transit = t.transit := by rw [kframe, hframe]
  refine ⟨⟨fun i => ?_, ?_, fun x => ?_, fun hq n => ?_, fun n => ?_, fun q => ?_, fun hf hc => ?_⟩, ?_, fun n => ?_, ?_⟩
  · have hi : w.grantSlot i = v.grantSlot i := by rw [mframe]; rfl
    rw [hi, kslot i, hgrant i]
    exact if_congr (hmem i) rfl rfl
  · have hw : w.ageList = v.ageList := by rw [mframe]
    have hu : u.ageList = t.ageList := hsame.ageList
    rw [hw, kage (hsame.age ha), hu]
    refine List.filter_congr fun i _ => ?_
    rw [Bool.eq_iff_iff, decide_eq_true_iff, Bool.not_eq_true', ← Bool.not_eq_true, mem_grantsOf ha]
  · have hx : w.waitSlot x = u.waitSlot x := by rw [mframe, kframe]; rfl
    rw [hx]; exact hwait x
  · have hn : (w.pool n).queue = (v.pool n).queue := by rw [mframe]; rfl
    rw [hn, kpool n]; exact hqueue hq n
  · rw [mtoken n, hvtoken n]
    exact if_congr names_tokensOf rfl rfl
  · rw [mwatch q, hvwatch q]
    split
    · exact BitVec.zero_and
    · rfl
  · exact msame.charge (kcharge (hsame.family hf) (hsame.charge hc))
  · rw [mtransit, hvtransit]
    unfold tokenFreeNotices
    have hfilter : ((List.finRange 4).filter fun q => v.watch q &&& tokensOf t p != 0) =
        (List.finRange 4).filter fun q => q != p && (t.watch q &&& tokensOf t p) != 0 :=
      List.filter_congr fun q _ => by
        rw [hvwatch q]
        by_cases hq : q = p <;> simp [hq]
    rw [hfilter]
    congr 1
    refine List.map_congr_left fun q hq => ?_
    have hne : q ≠ p := by
      rintro rfl
      simpa using (List.mem_filter.1 hq).2
    rw [hvwatch q, if_neg hne]
  · have hn : w.pool n = v.pool n := by rw [mframe]; rfl
    rw [hn, kpool n, hsame.pools n]
  · rw [mframe, kframe, hframe]

end State

namespace FreesHoldings

variable {t v : State} {p : Port}

/-- Once all it held is freed a port holds nothing. -/
theorem holdsNothing (h : FreesHoldings t v p) : HoldsNothing v p := by
  obtain ⟨hgrant, _, hwait, _, htoken, hwatch, _⟩ := h
  refine ⟨fun i g hg hp => ?_, fun w r hr hp => ?_, fun n => ?_, ?_⟩
  · rw [State.grant?, hgrant i] at hg
    split at hg
    · cases hg
    · rename_i hnot
      exact hnot (State.holdsGrant_iff.2 ⟨g, hg, hp⟩)
  · rw [State.record?, hwait w] at hr
    split at hr
    · cases hr
    · rename_i hnot
      exact hnot (holdsRecord_iff.2 ⟨r, hr, hp⟩)
  · rw [htoken n]
    split
    · exact ⟨Token.noConfusion, Token.noConfusion⟩
    · rename_i hnot
      exact not_or.1 hnot
  · rw [hwatch p, if_pos rfl]

end FreesHoldings

/-- After an item that drew the window's consequence and then its pass, the window that was open is open exactly while an
AUDIT holding is left (R139). -/
theorem window_servicePass {t v : State} (hv : v.window = windowAfter t v) (roots : List PoolNo) (ht : t.window.isOpen) :
    (v.servicePass roots).window.isOpen = (v.servicePass roots).anyAudit := by
  rw [State.anyAudit_servicePass, (v.onlyServes_servicePass roots).window, hv, windowAfter, ht]
  cases v.anyAudit with
  | true => exact ht
  | false => rfl

end Sys2Proof.Machine
end

section
/-! Proofs, part 22: DET, LAPSE and EVC (R108, R111, R112). -/

namespace Sys2Proof.Machine

/-- From `t` to `w` all that port `p` holds is freed, and beside it no more than sessions, the port's own controller, the
window and notices move: what a lapse or detachment has done before its pass (R108, R111). -/
structure Releases (t w : State) (p : Port) : Prop where
  frees : FreesHoldings t w p
  touches : OnlyReleases t w (some p)
  marks : w.marks = t.marks
  window : w.window = windowAfter t w

/-- Freeing what a port holds, moving sessions, the port's controller and notices, and closing the window if no AUDIT
holding is left. -/
theorem releases_closeIfDone {t x : State} {p : Port} (ha : AgeLaw t)
    (hx : x = { t.releaseHoldings p with sessions := x.sessions, ports := x.ports, transit := x.transit })
    (hports : ∀ q, q ≠ p → x.port q = t.port q) : Releases t x.closeIfDone p := by
  obtain ⟨hfrees, _, hfig, hframe⟩ := State.releaseHoldings_effect ha p
  generalize t.releaseHoldings p = v at hfrees hfig hframe hx
  have hwindow : x.window = t.window := by rw [hx, hframe]
  rw [State.closeIfDone_eq]
  refine ⟨?_, ⟨?_, fun n => ?_, fun q hq => ?_⟩, ?_, windowAfter_congr hwindow rfl⟩
  · rw [hx]; exact hfrees
  · generalize windowAfter x x = z
    rw [hx, hframe]
  · rw [hx]; exact hfig n
  · exact hports q fun e => hq (congrArg some e.symm)
  · rw [hx, hframe]

namespace State

variable (s : State)

theorem port_post (p q : Port) (n : Notice) : (s.post q n).port p = s.port p := rfl

theorem sessions_closeIfDone : s.closeIfDone.sessions = s.sessions := by rw [closeIfDone_eq]
theorem transit_closeIfDone : s.closeIfDone.transit = s.transit := by rw [closeIfDone_eq]
theorem port_closeIfDone (p : Port) : s.closeIfDone.port p = s.port p := by rw [closeIfDone_eq]; rfl

end State

/-- What a pass leaves of a release: the port still holds nothing, and an open window stays open exactly while an AUDIT
holding is left. -/
theorem Releases.servicePass {t w : State} {p : Port} (h : Releases t w p) (roots : List PoolNo) :
    OnlyServes w (w.servicePass roots) ∧ OnlyReleases t (w.servicePass roots) (some p) ∧
      HoldsNothing (w.servicePass roots) p ∧
      (t.window.isOpen → (w.servicePass roots).window.isOpen = (w.servicePass roots).anyAudit) :=
  have hserves := w.onlyServes_servicePass roots
  ⟨hserves, h.touches.trans (hserves.releases _), h.frees.holdsNothing.servicePass roots,
    window_servicePass h.window roots⟩

/-! ## DET -/

/-- The state before the pass of a detachment (R111). -/
def State.detached (t : State) (p : Port) : State :=
  (((t.releaseHoldings p).setSession p Session.initial).modPort p fun c =>
    { c with lease := none, notices := [], missed := false }).closeIfDone

theorem State.detached_effect {t : State} (ha : AgeLaw t) (p : Port) :
    Releases t (t.detached p) p ∧
    (t.detached p).transit = t.transit ++ tokenFreeNotices t (tokensOf t p) (· != p) ∧
    (t.detached p).sessions = t.sessions.set p { state := .detached, leasePeriod := 0, lapseCause := none } ∧
    (t.detached p).port p = { t.port p with lease := none, notices := [], missed := false } := by
  obtain ⟨_, htransit, _, hframe⟩ := releaseHoldings_effect ha p
  have hport (q : Port) : (t.releaseHoldings p).port q = t.port q := by rw [hframe]; rfl
  have hsessions : (t.releaseHoldings p).sessions = t.sessions := by rw [hframe]
  refine ⟨releases_closeIfDone ha rfl fun q hq => ?_, ?_, ?_, ?_⟩
  · rw [port_modPort, if_neg hq]; exact hport q
  · rw [detached, transit_closeIfDone]; exact htransit
  · rw [detached, sessions_closeIfDone]
    exact congrArg (fun x : Vector Session 4 => x.set p Session.initial) hsessions
  · rw [detached, port_closeIfDone, port_modPort, if_pos rfl]
    exact congrArg (fun c : PortCtl => { c with lease := none, notices := [], missed := false }) (hport p)

/-- Settles O19: what the release has done before the pass (`State.detached_effect`), and what the pass keeps of it
(`Releases.servicePass`). -/
theorem detachReleasesEverything : Obligations.DetachReleasesEverything := by
  intro s t p tag h ha hage
  obtain ⟨hreleases, htransit, hsessions, hport⟩ := State.detached_effect hage p
  obtain ⟨hserves, htouches, hnothing, hwindow⟩ := hreleases.servicePass (t.familiesOfHoldings p)
  have hexec : exec (.det p tag) s = .next (answered (t.detachSession p) p .ok []) :=
    coreRequest_attached h ha fun x => (x.detachSession p).replyWith p .ok []
  refine ⟨t.detached p, _, t.familiesOfHoldings p, hexec, hreleases.touches, hreleases.frees, htransit, hreleases.marks,
    hreleases.window, State.servesHoldings_familiesOfHoldings hage, rfl, hserves, htouches, hnothing,
    ?_, ?_, hwindow⟩
  · exact hserves.sessions.trans hsessions
  · exact (hserves.port p).trans hport

/-! ## LAPSE and EVC -/

/-- The state before the pass of a lapse (R108). -/
def State.lapsed (t : State) (p : Port) (cause : LapseCause) : State :=
  let v := t.releaseHoldings p
  (((v.setSession p { v.session p with state := .lapsed, lapseCause := some cause }).modPort p fun c =>
    { c with lease := none }).post p (.lapsed cause)).closeIfDone

theorem State.lapsed_effect {t : State} (ha : AgeLaw t) (p : Port) (cause : LapseCause) :
    Releases t (t.lapsed p cause) p ∧
    (t.lapsed p cause).transit = t.transit ++ tokenFreeNotices t (tokensOf t p) (· != p) ++ [(p, .lapsed cause)] ∧
    (t.lapsed p cause).sessions =
      t.sessions.set p { t.session p with state := .lapsed, lapseCause := some cause } ∧
    (t.lapsed p cause).port p = { t.port p with lease := none } := by
  obtain ⟨_, htransit, _, hframe⟩ := releaseHoldings_effect ha p
  have hport (q : Port) : (t.releaseHoldings p).port q = t.port q := by rw [hframe]; rfl
  have hsessions : (t.releaseHoldings p).sessions = t.sessions := by rw [hframe]
  have hsession : (t.releaseHoldings p).session p = t.session p := by rw [hframe]; rfl
  refine ⟨releases_closeIfDone ha rfl fun q hq => ?_, ?_, ?_, ?_⟩
  · rw [port_post, port_modPort, if_neg hq]; exact hport q
  · rw [lapsed, transit_closeIfDone, ← htransit]; rfl
  · rw [lapsed, sessions_closeIfDone, hsession]
    exact congrArg
      (fun x : Vector Session 4 => x.set p { t.session p with state := .lapsed, lapseCause := some cause }) hsessions
  · rw [lapsed, port_closeIfDone, port_post, port_modPort, if_pos rfl]
    exact congrArg (fun c : PortCtl => { c with lease := none }) (hport p)

/-- What a lapse does, and what its pass keeps of it (R108). -/
theorem State.lapseSession_effect {t : State} (ha : AgeLaw t) (p : Port) (cause : LapseCause) :
    ∃ w u roots, t.lapseSession p cause = u ∧ OnlyReleases t w (some p) ∧ FreesHoldings t w p ∧
      w.transit = t.transit ++ tokenFreeNotices t (tokensOf t p) (· != p) ++ [(p, .lapsed cause)] ∧ w.marks = t.marks ∧
      w.window = windowAfter t w ∧ ServesHoldings t p roots ∧ u = w.servicePass roots ∧ OnlyServes w u ∧
      OnlyReleases t u (some p) ∧ HoldsNothing u p ∧
      u.sessions = t.sessions.set p { t.session p with state := .lapsed, lapseCause := some cause } ∧
      u.port p = { t.port p with lease := none } ∧ (p, .lapsed cause) ∈ u.transit ∧
      (t.window.isOpen → u.window.isOpen = u.anyAudit) := by
  obtain ⟨hreleases, htransit, hsessions, hport⟩ := lapsed_effect ha p cause
  obtain ⟨hserves, htouches, hnothing, hwindow⟩ := hreleases.servicePass (t.familiesOfHoldings p)
  have htold : (p, Notice.lapsed cause) ∈ (t.lapsed p cause).transit := by
    rw [htransit]; exact List.mem_append_right _ List.mem_cons_self
  exact ⟨t.lapsed p cause, _, t.familiesOfHoldings p, rfl, hreleases.touches, hreleases.frees, htransit, hreleases.marks,
    hreleases.window, servesHoldings_familiesOfHoldings ha, rfl, hserves, htouches, hnothing,
    hserves.sessions.trans hsessions, (hserves.port p).trans hport, mem_transit_servicePass htold _, hwindow⟩

/-- Settles O20: the event is taken, and an ATTACHED port lapses (`State.lapseSession_effect`). -/
theorem lapseReleasesEverything : Obligations.LapseReleasesEverything := by
  intro s t v p rest h hlapse hv
  have htake : t.takeLapse p = some (if (v.session p).state = .attached then v.lapseSession p .lease else v) := by
    unfold State.takeLapse
    rw [hlapse, hv]
    dsimp only
    split <;> rfl
  have hexec : exec (.lapse p) s = .next (if (v.session p).state = .attached then v.lapseSession p .lease else v) :=
    coreEvent_free h (fun x => x.takeLapse p) htake
  have hsession : v.session p = t.session p := by rw [hv]; rfl
  rw [hexec, hsession]
  refine ⟨fun hs => by rw [if_neg hs], fun hs hage => ?_⟩
  rw [if_pos hs]
  obtain ⟨w, u, roots, hu, hlapses⟩ := State.lapseSession_effect (t := v) (by rw [hv]; exact hage) p .lease
  subst hv
  exact ⟨w, u, roots, by rw [hu], hlapses⟩

/-! ## EVC -/

namespace State

variable {t : State} {p : Port} {target : Byte}

theorem answerEvc_noRight (h : (t.portProfile p).supervise = false) :
    t.answerEvc p target = refusedWith t p .noRight 0 := by
  unfold answerEvc; rw [h]; rfl

theorem answerEvc_badValue (h : (t.portProfile p).supervise = true) (hq : portOf? target = none ∨ portOf? target = some p) :
    t.answerEvc p target = refusedWith t p .badValue 0 := by
  unfold answerEvc
  rw [h]
  rcases hq with hq | hq
  · rw [hq]; rfl
  · rw [hq]; simp only [if_true]; rfl

/-- EVC of another port is decided by that port's session (R112, R194). -/
theorem answerEvc_session {q : Port} (h : (t.portProfile p).supervise = true) (hq : portOf? target = some q) (hne : q ≠ p) :
    t.answerEvc p target =
      match (t.session q).state with
      | .detached => refusedWith t p .notAttached 0
      | .lapsed => refusedWith t p .notAttached 0
      | .attached => answered (t.lapseSession q .evicted) p .ok []
      | .recovering => answered (t.lapseSession q .evicted) p .ok [] := by
  unfold answerEvc
  rw [h, hq]
  simp only [if_neg hne]
  cases (t.session q).state <;> rfl

theorem portOf?_eq_none {b : Byte} (h : 3 < b.toNat) : portOf? b = none := dif_neg (Nat.not_lt.2 h)

end State

/-- Settles O21: R194's checks in their order, then the lapse of the named port (`State.lapseSession_effect`). -/
theorem evictionLapsesNamedPort : Obligations.EvictionLapsesNamedPort := by
  intro s t p tag target h ha
  have hexec : exec (.evc p tag target) s = .next (t.answerEvc p target) :=
    coreRequest_attached h ha fun u => u.answerEvc p target
  rw [hexec]
  refine ⟨fun hs => by rw [State.answerEvc_noRight hs], fun hs hv => ?_,
    fun q hs hq hne => ⟨fun hout => ?_, fun hin hage => ?_⟩⟩
  · rw [State.answerEvc_badValue hs (hv.imp State.portOf?_eq_none fun e => State.portOf?_eq_some.2 e.symm)]
  · rw [State.answerEvc_session hs (State.portOf?_eq_some.2 hq.symm) hne]
    rcases hout with hout | hout <;> rw [hout]
  · obtain ⟨w, u, roots, hu, hlapses⟩ := State.lapseSession_effect hage q .evicted
    refine ⟨w, u, roots, ?_, hlapses⟩
    rw [State.answerEvc_session hs (State.portOf?_eq_some.2 hq.symm) hne]
    rcases hin with hin | hin <;> rw [hin, hu]

end Sys2Proof.Machine
end

section
/-! Proofs, part 23: the end of the audit window (R139, R140). -/

namespace Sys2Proof.Machine

namespace State

variable (s : State)

/-! ## AUDIT grants -/

theorem isAudit_eq (i : GrantNo) : s.isAudit i = (s.grant? i).any fun g => g.state == .audit := by
  unfold isAudit
  cases s.grant? i <;> rfl

theorem isAudit_iff {i : GrantNo} : s.isAudit i = true ↔ ∃ g ∈ s.grant? i, g.state = .audit := by
  rw [isAudit_eq, Option.any_eq_true]
  simp only [beq_iff_eq]
  rfl

/-- The AUDIT grants, oldest first. -/
def auditGrants : List GrantNo := s.ageList.filter s.isAudit

variable {s} in
/-- The age list names every AUDIT grant (R26). -/
theorem mem_auditGrants (ha : AgeLaw s) {i : GrantNo} : i ∈ s.auditGrants ↔ s.isAudit i = true := by
  unfold auditGrants isAudit
  rw [List.mem_filter, ha.2 i]
  cases s.grant? i <;> simp

/-- The notice of one reclaimed grant, if its owner is ATTACHED (R140). -/
def reclaimNotice (i : GrantNo) : Option (Port × Notice) :=
  (s.grant? i).bind fun g =>
    if (s.session g.port).state = .attached then some (g.port, .revoked (s.handleOf i) .auditEnd) else none

theorem reclaimNotice_freeGrant {i j : GrantNo} (h : j ≠ i) : (s.freeGrant i).reclaimNotice j = s.reclaimNotice j := by
  have hslot : (s.freeGrant i).grantSlot j = s.grantSlot j := by
    rw [grantSlot_freeGrant_freed, if_neg fun hc => h hc.1]
  have hsession (p : Port) : (s.freeGrant i).session p = s.session p := by rw [freeGrant_frame]; rfl
  simp only [reclaimNotice, grant?, handleOf, hslot, hsession]

theorem subCharge_transit (x : List (Port × Notice)) (n : PoolNo) (k : Nat) :
    ({ s with transit := x } : State).subCharge n k = { s.subCharge n k with transit := x } := by
  have hpool : ({ s with transit := x } : State).pool n = s.pool n := rfl
  unfold subCharge
  rw [hpool]
  cases (s.pool n).parent <;> rfl

theorem freeGrant_transit (x : List (Port × Notice)) (i : GrantNo) :
    ({ s with transit := x } : State).freeGrant i = { s.freeGrant i with transit := x } := by
  have hgrant : ({ s with transit := x } : State).grant? i = s.grant? i := rfl
  unfold freeGrant
  rw [hgrant]
  cases s.grant? i with
  | none => rfl
  | some g =>
    exact congrArg (fun y : State => { y with ageList := y.ageList.filter (· ≠ i) })
      ((s.setGrantSlot i (s.grantSlot i).freed).subCharge_transit x g.pool g.units)

/-- A reclaimed grant is freed, and its notice follows those handed over before. -/
theorem reclaimGrant_eq (x : List (Port × Notice)) (i : GrantNo) : ({ s with transit := x } : State).reclaimGrant i =
    { s.freeGrant i with transit := x ++ (s.reclaimNotice i).toList } := by
  have hgrant : ({ s with transit := x } : State).grant? i = s.grant? i := rfl
  have hsession (p : Port) : ({ s with transit := x } : State).session p = s.session p := rfl
  unfold reclaimGrant reclaimNotice
  rw [hgrant, freeGrant_transit]
  cases hg : s.grant? i with
  | none => simp [freeGrant_free hg]
  | some g =>
    dsimp only
    rw [hsession, Option.bind_some]
    split
    · rfl
    · rw [Option.toList_none, List.append_nil]

theorem foldl_reclaimGrant (l : List GrantNo) (hl : l.Nodup) : ∀ (s : State) (x : List (Port × Notice)),
    l.foldl reclaimGrant { s with transit := x } =
      { s.freeGrants l with transit := x ++ l.filterMap s.reclaimNotice } := by
  induction l with
  | nil => intro s x; simp [freeGrants]
  | cons i rest ih =>
    intro s x
    obtain ⟨hi, hrest⟩ := List.nodup_cons.1 hl
    have hnotices : rest.filterMap (s.freeGrant i).reclaimNotice = rest.filterMap s.reclaimNotice :=
      List.filterMap_congr fun j hj => s.reclaimNotice_freeGrant fun e => hi (e ▸ hj)
    have hfree : s.freeGrants (i :: rest) = (s.freeGrant i).freeGrants rest := rfl
    rw [List.foldl_cons, reclaimGrant_eq, ih hrest, hnotices, hfree, List.append_assoc]
    cases hn : s.reclaimNotice i with
    | none => rw [List.filterMap_cons_none hn]; rfl
    | some n => rw [List.filterMap_cons_some hn]; rfl

/-! ## Ports still RECOVERING -/

theorem session_endRecovery (p q : Port) : (s.endRecovery p).session q =
    if q = p ∧ (s.session q).state = .recovering then { s.session q with state := .detached } else s.session q := by
  unfold endRecovery
  by_cases hq : q = p
  · subst hq
    by_cases hc : (s.session q).state = .recovering
    · simp [hc]
    · rw [if_neg hc, if_neg fun h => hc h.2]
  · rw [if_neg fun h : q = p ∧ _ => hq h.1]
    split
    · rw [session_setSession, if_neg hq]
    · rfl

theorem foldl_endRecovery (l : List Port) : ∀ s : State,
    (∀ q, (l.foldl endRecovery s).session q =
      if q ∈ l ∧ (s.session q).state = .recovering then { s.session q with state := .detached } else s.session q) ∧
    l.foldl endRecovery s = { s with sessions := (l.foldl endRecovery s).sessions } := by
  induction l with
  | nil => intro s; exact ⟨fun q => by simp, rfl⟩
  | cons p rest ih =>
    intro s
    have hfirst : s.endRecovery p = { s with sessions := (s.endRecovery p).sessions } := by
      unfold endRecovery; split <;> rfl
    obtain ⟨hsession, hframe⟩ := ih (s.endRecovery p)
    rw [List.foldl_cons]
    generalize rest.foldl endRecovery (s.endRecovery p) = t at hsession hframe
    refine ⟨fun q => ?_, hframe.trans (congrArg (fun y : State => { y with sessions := t.sessions }) hfirst)⟩
    rw [hsession q, session_endRecovery]
    by_cases hq : q = p
    · subst hq
      by_cases hr : (s.session q).state = .recovering <;> simp [hr]
    · simp [hq]

/-! ## The reclaiming -/

/-- The state before the pass of the audit end (R140). -/
def auditReclaimed : State :=
  let t := s.auditGrants.foldl reclaimGrant s
  let t := t.freeTokens t.allAuditMask
  (List.finRange 4).foldl endRecovery { t with window := .closed }

/-- The families the audit end serves (R33, R140). -/
def auditFamilies : List PoolNo :=
  s.familiesOfGrants s.auditGrants ++ if s.auditGrants.isEmpty then [] else s.markedFamilies

theorem reclaimAudit_eq : s.reclaimAudit = s.auditReclaimed.servicePass s.auditFamilies := rfl

theorem names_allAuditMask {n : TokenNo} : names s.allAuditMask n = true ↔ ∃ p, s.token n = .audit p := by
  rw [allAuditMask, names_maskOf]
  cases s.token n <;> simp

variable {s} in
theorem mem_auditFamilies (ha : AgeLaw s) {n : PoolNo} : n ∈ s.auditFamilies ↔
    ∃ i, ∃ g ∈ s.grant? i, g.state = .audit ∧ (s.rootOf g.pool = n ∨ s.mark n = true) := by
  unfold auditFamilies
  rw [List.mem_append, mem_familiesOfFreed fun i => (mem_auditGrants ha).trans s.isAudit_iff]

end State

/-- From `t` to `w` the audit end has reclaimed every AUDIT holding and not yet made its pass (R140). -/
structure ReclaimsAudit (t w : State) : Prop where
  grantSlot : ∀ i, w.grantSlot i = if t.isAudit i then (t.grantSlot i).freed else t.grantSlot i
  ageList : w.ageList = t.ageList.filter fun i => !t.isAudit i
  charge : FamilyLaw t → ChargeLaw t → ChargeLaw w
  pool : ∀ n, w.pool n = { t.pool n with charged := (w.pool n).charged }
  token : ∀ n, w.token n = if names t.allAuditMask n then .free else t.token n
  watch : ∀ q, w.watch q = t.watch q &&& ~~~t.allAuditMask
  session : ∀ p, w.session p =
    if (t.session p).state = .recovering then { t.session p with state := .detached } else t.session p
  transit : w.transit = t.transit ++ t.auditGrants.filterMap t.reclaimNotice ++
    tokenFreeNotices t t.allAuditMask fun _ => true
  frame : w = { t with
    pools := w.pools, grants := w.grants, ageList := w.ageList, tokens := w.tokens, watches := w.watches
    sessions := w.sessions, window := .closed, transit := w.transit }

theorem State.reclaimsAudit_auditReclaimed {t : State} (ha : AgeLaw t) : ReclaimsAudit t t.auditReclaimed := by
  have hreclaim : t.auditGrants.foldl State.reclaimGrant t = { t.freeGrants t.auditGrants with
      transit := t.transit ++ t.auditGrants.filterMap t.reclaimNotice } :=
    State.foldl_reclaimGrant t.auditGrants (ha.1.filter _) t t.transit
  obtain ⟨hslot, hage, hcharge, hpool, hframe⟩ := State.freeGrants_effect t.auditGrants t
  have hmem (i : GrantNo) : (i ∈ t.auditGrants ∧ (t.grant? i).isSome = true) ↔ t.isAudit i = true := by
    rw [State.mem_auditGrants ha, ← ha.2 i]
    exact ⟨fun h => h.1, fun h => ⟨h, (List.mem_filter.1 ((State.mem_auditGrants ha).2 h)).1⟩⟩
  unfold State.auditReclaimed
  rw [hreclaim]
  generalize t.freeGrants t.auditGrants = u at hslot hage hcharge hpool hframe
  generalize hv : ({ u with transit := t.transit ++ t.auditGrants.filterMap t.reclaimNotice } : State) = v
  have hmask : v.allAuditMask = t.allAuditMask := by rw [← hv, hframe]; rfl
  dsimp only
  rw [hmask]
  obtain ⟨mtoken, mwatch, mtransit, mframe⟩ := v.freeTokens_effect t.allAuditMask
  have msame := v.same_freeTokens t.allAuditMask
  generalize v.freeTokens t.allAuditMask = x at mtoken mwatch mtransit mframe msame ⊢
  obtain ⟨ksession, kframe⟩ := State.foldl_endRecovery (List.finRange 4) { x with window := .closed }
  generalize (List.finRange 4).foldl State.endRecovery { x with window := .closed } = w at ksession kframe ⊢
  have hsame : SameAccounts u w := by
    have huv : SameAccounts u v := by rw [← hv]; exact .of_tables rfl rfl rfl rfl
    have hxw : SameAccounts x w := by rw [kframe]; exact .of_tables rfl rfl rfl rfl
    exact huv.trans (msame.trans hxw)
  have hpools : w.pools = u.pools := by rw [kframe, mframe, ← hv]
  have hvwatch (q : Port) : v.watch q = t.watch q := by rw [← hv, hframe]; rfl
  refine ⟨fun i => ?_, ?_, fun hf hc => hsame.charge (hcharge hf hc), fun n => ?_, fun n => ?_, fun q => ?_, fun p => ?_,
    ?_, ?_⟩
  · have hi : w.grantSlot i = u.grantSlot i := by rw [kframe, mframe, ← hv]; rfl
    rw [hi, hslot i]
    exact if_congr (hmem i) rfl rfl
  · rw [hsame.ageList, hage ha]
    refine List.filter_congr fun i _ => ?_
    rw [Bool.eq_iff_iff, decide_eq_true_iff, Bool.not_eq_true', ← Bool.not_eq_true, State.mem_auditGrants ha]
  · have hn : w.pool n = u.pool n := by simp only [State.pool, hpools]
    rw [hn]; exact hpool n
  · have hw : w.token n = x.token n := by rw [kframe]; rfl
    have ht : v.token n = t.token n := by rw [← hv, hframe]; rfl
    rw [hw, mtoken n, ht]
  · have hw : w.watch q = x.watch q := by rw [kframe]; rfl
    rw [hw, mwatch q, hvwatch q]
  · have hp : x.session p = t.session p := by rw [mframe, ← hv, hframe]; rfl
    have hp' : ({ x with window := .closed } : State).session p = t.session p := hp
    rw [ksession p, hp']
    exact if_congr (and_iff_right (List.mem_finRange p)) rfl rfl
  · have hw : w.transit = x.transit := by rw [kframe]
    have ht : v.transit = t.transit ++ t.auditGrants.filterMap t.reclaimNotice := by rw [← hv]
    rw [hw, mtransit, ht]
    simp only [hvwatch, tokenFreeNotices, Bool.true_and]
  · rw [kframe, mframe, ← hv, hframe]

/-- The notices of the reclaimed grants, read off the whole age list. -/
theorem State.filterMap_reclaimNotice (t : State) : t.auditGrants.filterMap t.reclaimNotice =
    t.ageList.filterMap fun i => (t.grant? i).bind fun g =>
      if g.state = .audit ∧ (t.session g.port).state = .attached then
        some (g.port, .revoked ((t.grantSlot i).generation * 64 + i.val) .auditEnd)
      else none := by
  unfold State.auditGrants
  rw [List.filterMap_filter]
  refine List.filterMap_congr fun i _ => ?_
  unfold State.isAudit State.reclaimNotice
  cases t.grant? i with
  | none => rfl
  | some g =>
    by_cases hg : g.state = .audit
    · simp only [hg, beq_self_eq_true, if_true, Option.bind_some, true_and]
      rfl
    · simp [hg]

namespace ReclaimsAudit

variable {t w : State} (h : ReclaimsAudit t w)

include h

theorem releases : OnlyReleases t w none := by
  refine ⟨?_, fun n => ?_, fun q _ => ?_⟩
  · rw [h.frame]
  · rw [h.pool n]
  · rw [h.frame]; rfl

theorem anyAudit : w.anyAudit = false := by
  rw [← Bool.not_eq_true, State.anyAudit_iff]
  rintro (⟨i, g, hg, ha⟩ | ⟨n, p, hn⟩)
  · rw [State.grant?, h.grantSlot i] at hg
    by_cases hi : t.isAudit i = true
    · rw [if_pos hi] at hg; cases hg
    · rw [if_neg hi] at hg
      exact hi (t.isAudit_iff.2 ⟨g, hg, ha⟩)
  · rw [h.token n] at hn
    by_cases hm : names t.allAuditMask n = true
    · rw [if_pos hm] at hn; cases hn
    · rw [if_neg hm] at hn
      exact hm (t.names_allAuditMask.2 ⟨p, hn⟩)

theorem token_eq (n : TokenNo) : w.token n = match t.token n with | .audit _ => .free | x => x := by
  rw [h.token n]
  cases hn : t.token n with
  | audit p => exact if_pos (t.names_allAuditMask.2 ⟨p, hn⟩)
  | free => exact ite_self _
  | held p =>
    refine if_neg fun hm => ?_
    obtain ⟨q, hq⟩ := t.names_allAuditMask.1 hm
    rw [hn] at hq; cases hq

theorem grant?_of_active {i : GrantNo} {g : Grant} (hg : t.grant? i = some g) (ha : g.state = .active) :
    w.grant? i = some g := by
  have hi : ¬ t.isAudit i = true := fun hc => by
    obtain ⟨x, hx, hs⟩ := t.isAudit_iff.1 hc
    rw [hg] at hx; cases hx
    rw [ha] at hs; cases hs
  rw [State.grant?, h.grantSlot i, if_neg hi]
  exact hg

end ReclaimsAudit

/-- Settles O48: what is reclaimed before the pass (`State.reclaimsAudit_auditReclaimed`), and what the pass keeps of it. -/
theorem auditEndReclaimsAuditHoldings : Obligations.AuditEndReclaimsAuditHoldings := by
  intro s t v hfree hmade hv
  have htake : t.takeAuditEnd = some (if v.window.isOpen then v.reclaimAudit else v) := by
    rw [State.takeAuditEnd, if_pos hmade, hv]
  have hexec : exec .auditEnd s = .next (if v.window.isOpen then v.reclaimAudit else v) :=
    coreEvent_free hfree (fun x => x.takeAuditEnd) htake
  have hwindow : v.window = t.window := by rw [hv]
  rw [hexec, hwindow]
  refine ⟨fun hclosed => by rw [hclosed]; rfl, fun hopen hage => ?_⟩
  rw [if_pos hopen, State.reclaimAudit_eq]
  have hage' : AgeLaw v := by rw [hv]; exact hage
  have hw := State.reclaimsAudit_auditReclaimed hage'
  have hroots (n : PoolNo) := State.mem_auditFamilies (n := n) hage'
  have hnotices := hw.transit
  rw [v.filterMap_reclaimNotice] at hnotices
  generalize v.auditReclaimed = w at hw hnotices ⊢
  have hserves := w.onlyServes_servicePass v.auditFamilies
  obtain ⟨_, _, hkeeps⟩ := id hserves
  subst hv
  refine ⟨w, _, _, rfl, hw.releases, ⟨hnotices, hw.watch⟩, by rw [hw.frame], by rw [hw.frame], ?_, fun n => ?_, hw.charge,
    fun i => ?_, hroots, rfl, hserves, hw.releases.trans (hserves.releases none), ?_, ?_, fun n => ?_, fun p => ?_,
    fun i g hg ha => hkeeps i g (hw.grant?_of_active hg ha)⟩
  · simp only [← State.isAudit_eq]; exact hw.ageList
  · rw [hw.pool n]; rfl
  · rw [← State.isAudit_eq]; exact hw.grantSlot i
  · rw [State.anyAudit_servicePass]; exact hw.anyAudit
  · rw [hserves.window, hw.frame]; rfl
  · rw [hserves.token n]; exact hw.token_eq n
  · rw [hserves.session p]; exact hw.session p

end Sys2Proof.Machine
end

section
/-! Proofs, part 24: the warm start with a good signature (R134). -/

namespace Sys2Proof.Machine

namespace State

variable (s : State)

/-! ## The tables of the warm start, one by one -/

theorem freshPorts_warmTables : FreshPorts s s.warmTables := by
  have hports : s.warmTables.ports = s.discardWork.ports := rfl
  obtain ⟨hfresh, _⟩ := s.discardWork_effect
  intro q
  rw [port, hports]
  exact hfresh q

theorem grantSlot_warmTables (i : GrantNo) : s.warmTables.grantSlot i =
    { s.grantSlot i with grant := (s.grant? i).map fun g => { g with state := .audit } } := tabulate_get _ i

theorem token_warmTables (n : TokenNo) :
    s.warmTables.token n = match s.token n with | .held q => .audit q | x => x := by
  have hn : s.warmTables.token n =
      match s.token n with | .held q => .audit q | .audit q => .audit q | .free => .free := tabulate_get _ n
  rw [hn]
  cases s.token n <;> rfl

/-- Records go with their slots' generations advanced; a FREE slot stays (R65). -/
theorem waitSlot_warmTables (i : WaitNo) : s.warmTables.waitSlot i = { record := none, generation :=
    (if (s.record? i).isSome then generationAfter 2047 (s.waitSlot i).generation else (s.waitSlot i).generation) } := by
  have hi : s.warmTables.waitSlot i = match s.record? i with
      | some _ => { generation := nextGeneration Config.lastWaitGeneration (s.waitSlot i).generation, record := none }
      | none => s.waitSlot i := tabulate_get _ i
  rw [hi]
  cases hr : s.record? i with
  | some r => rfl
  | none => exact congrArg (fun x => (⟨(s.waitSlot i).generation, x⟩ : WaitSlot)) hr

theorem pool_warmTables (n : PoolNo) : s.warmTables.pool n = { s.pool n with queue := [] } := tabulate_get _ n

/-- The sessions follow the AUDIT holdings, which do not depend on them (R116). -/
theorem session_warmTables (p : Port) : s.warmTables.session p =
    { state := if s.warmTables.holdsAudit p then .recovering else .detached, leasePeriod := 0, lapseCause := none } :=
  tabulate_get _ p

/-- The window opens over the AUDIT holdings, which do not depend on it (R137). -/
theorem window_warmTables : s.warmTables.window = if s.warmTables.anyAudit then
    { isOpen := true, remaining := s.profile.auditTime } else { isOpen := false, remaining := 0 } := rfl

/-- What the tables of the warm start leave as it is (R134). -/
theorem warmTables_keeps : s.warmTables.profile = s.profile ∧ s.warmTables.ageList = s.ageList ∧
    s.warmTables.slots = s.slots ∧ s.warmTables.commissioning = s.commissioning := by
  simp only [warmTables, openWindow, sessionsFromHoldings, discardRecords, tokensToAudit, grantsToAudit, discardWork,
    freshPorts, and_self]

theorem line_warmTables (g : SagGroup) :
    s.warmTables.line g = { state := .clear, seen := .low, sampled := false, timer := none } := by
  cases g <;> rfl

end State

/-- Settles O53: the tables of the warm start one by one, over the slots as the start classified them. -/
theorem warmStartTurnsHoldingsToAudit : Obligations.WarmStartTurnsHoldingsToAudit := by
  intro s hphase hsignature
  have hexec : exec (.warmStart false) s = .next s.beginStart.warmTables := by
    show execWarmStart false s = _
    rw [execWarmStart, if_pos hphase, State.completeWarmStart, if_pos ⟨hsignature, rfl⟩]
  obtain ⟨hprofile, hage, hslots, hcommissioning⟩ := s.beginStart.warmTables_keeps
  have hstore : StoreAtStart s s.beginStart.warmTables := by
    refine ⟨fun i => ?_, rfl, rfl⟩
    rw [State.imageSlot, hslots, ← State.imageSlot, State.imageSlot_beginStart]
    exact ⟨rfl, rfl⟩
  exact ⟨_, hexec, s.beginStart.freshPorts_warmTables, ⟨rfl, rfl, rfl, rfl, rfl, rfl⟩, hstore,
    s.beginStart.grantSlot_warmTables, s.beginStart.token_warmTables, s.beginStart.waitSlot_warmTables,
    s.beginStart.pool_warmTables, fun n => Vector.getElem_replicate _, fun p => Vector.getElem_replicate _,
    s.beginStart.session_warmTables, s.beginStart.window_warmTables, rfl, rfl, rfl, rfl,
    s.beginStart.line_warmTables, rfl, hprofile, hage, hcommissioning⟩

end Sys2Proof.Machine
end

section
/-! Proofs, part 25: steps that a tick made due come about (R58, R105, R107, R137; log entry 6), and the ends of wait records
(R46, R59, R60). -/

namespace Sys2Proof.Machine

namespace State

variable (s : State)

/-! ## What is due -/

/-- A due step leaves the list of what is due alone. -/
@[simp] theorem due_runDue (d : Due) : (s.runDue d).due = s.due := by rw [runDue_frame]

/-- A due step does not look at the list of what is due. -/
theorem runDue_withDue (d : Due) (l : List Due) :
    ({ s with due := l } : State).runDue d = { s.runDue d with due := l } := by
  have lineOf (g : SagGroup) : ({ s with due := l } : State).line g = s.line g := by cases g <;> rfl
  cases d with
  | lease p => rfl
  | deadline ticket => rfl
  | audit => rfl
  | lineAsserted g | lineDeasserted g | qualify g | restore g =>
    simp only [runDue, lineAsserts, lineDeasserts, qualifyRunsOut, restoreRunsOut, lineOf]
    cases (s.line g).state <;> cases g <;> rfl

/-- With nothing due, settling changes nothing (log entry 6). -/
theorem settle_nil (h : s.due = []) : s.settle = s := by
  rw [settle, settle_quiet h, h, List.foldl_nil]

/-- What is due comes about in the order of the list (log entry 6). -/
theorem settle_cons {d : Due} {rest : List Due} (h : s.due = d :: rest) :
    s.settle = (({ s with due := rest } : State).runDue d).settle := by
  have first : ({ ({ s with due := rest } : State).runDue d with due := [] } : State) =
      ({ s with due := [] } : State).runDue d :=
    (congrArg (fun t : State => { t with due := [] }) (s.runDue_withDue d rest)).trans (s.runDue_withDue d []).symm
  rw [settle, settle, due_runDue, first, h, List.foldl_cons]

end State

/-- A step that is due while the part runs comes about and goes off the list (log entry 6). -/
theorem dueStep_due {s : State} {d : Due} (hphase : s.phase = .running) (hd : d ∈ s.due) :
    dueStep s d = .next { s.runDue d with due := s.due.erase d } := by
  rw [dueStep_next, if_pos ⟨hphase, hd⟩, State.runDue_withDue]

/-- Settles O44: each expiry's row is its due step, and settling takes the due steps one by one. -/
theorem expiriesMakeTheirEvents : Obligations.ExpiriesMakeTheirEvents := by
  intro s p ticket hphase
  exact ⟨fun hd => dueStep_due (d := .lease p) hphase hd, fun hd => dueStep_due (d := .deadline ticket.toNat) hphase hd,
    fun hd => dueStep_due (d := .audit) hphase hd, s.settle_nil, fun _ _ hdue => s.settle_cons hdue⟩

/-! ## A record ends -/

section
variable {t : State} {w : WaitNo} {r : WaitRecord}

/-- Whether a live record stands at the head of an ORDERED queue (R45). -/
theorem State.isOrderedHead_iff (hr : t.record? w = some r) : t.isOrderedHead w = true ↔
    (t.pool r.pool).policy = .ordered ∧ (t.pool r.pool).queue.head? = some w := by
  rw [isOrderedHead, hr]
  simp only [Bool.and_eq_true, beq_iff_eq]

/-- The end of a record leaves what the removal and `told` leave, `v`; a pass over its family follows exactly when it was the
head of an ORDERED queue (R59, R60). -/
theorem State.endRecord_effect {v : State} {told : State → State} (hr : t.record? w = some r)
    (hv : told (t.removeRecord w) = v) :
    let head := (t.pool r.pool).policy = .ordered ∧ (t.pool r.pool).queue.head? = some w
    (¬ head → t.endRecord w r told = v) ∧
      (head → t.endRecord w r told = v.servicePass [t.rootOf r.pool] ∧ OnlyServes v (t.endRecord w r told)) := by
  subst hv
  refine ⟨fun h => if_neg (mt (isOrderedHead_iff hr).1 h), fun h => ?_⟩
  have served : t.endRecord w r told = (told (t.removeRecord w)).servicePass [t.rootOf r.pool] :=
    if_pos ((isOrderedHead_iff hr).2 h)
  exact ⟨served, served ▸ onlyServes_servicePass _ _⟩

end

/-! ## CAN -/

section
variable {t : State} {p : Port} {ticket : Word}

theorem State.answerCan_badTicket (hown : t.ownRecord p ticket = none) :
    t.answerCan p ticket = refusedWith t p .badTicket 0 := by
  rw [answerCan, hown]; rfl

theorem State.answerCan_ends {w : WaitNo} {r : WaitRecord} (hown : t.ownRecord p ticket = some (w, r)) :
    t.answerCan p ticket = answered (t.endRecord w r id) p .ok [] := by
  rw [answerCan, hown]; rfl

end

/-! ## EXPIRY_EVENT -/

section
variable {t : State} {ticket : Nat} (hmade : ticket ∈ t.expiryEvents)
include hmade

/-- An expiry event whose ticket names no live record is taken, and that is all (R59). -/
theorem State.takeExpiry_unnamed (hn : t.resolveTicket ticket = none) :
    t.takeExpiry ticket = some { t with expiryEvents := t.expiryEvents.erase ticket } := by
  have hn' : ({ t with expiryEvents := t.expiryEvents.erase ticket } : State).resolveTicket ticket = none := hn
  simp only [takeExpiry, if_pos hmade, hn']

/-- An expiry event whose ticket names a record with time left, or with no deadline, is taken, and that is all (R58, R59). -/
theorem State.takeExpiry_early {w : WaitNo} {r : WaitRecord} (hn : t.resolveTicket ticket = some (w, r))
    (hr : r.deadline ≠ some 0) :
    t.takeExpiry ticket = some { t with expiryEvents := t.expiryEvents.erase ticket } := by
  have hn' : ({ t with expiryEvents := t.expiryEvents.erase ticket } : State).resolveTicket ticket = some (w, r) := hn
  simp only [takeExpiry, if_pos hmade, hn', if_neg hr]

/-- An expiry event ends the record that made it, with WAIT_ENDED cause EXPIRED (R59). -/
theorem State.takeExpiry_ends {w : WaitNo} {r : WaitRecord} (hn : t.resolveTicket ticket = some (w, r))
    (hr : r.deadline = some 0) :
    t.takeExpiry ticket = some (({ t with expiryEvents := t.expiryEvents.erase ticket } : State).endRecord w r fun u =>
      u.post r.port (.waitEnded ticket .expired r.tag)) := by
  have hn' : ({ t with expiryEvents := t.expiryEvents.erase ticket } : State).resolveTicket ticket = some (w, r) := hn
  simp only [takeExpiry, if_pos hmade, hn', if_pos hr]

end

/-- Settles O28: what the ticket names decides, and the two ends of a record differ in what they hand over alone. -/
theorem cancelAndExpiryEndRecord : Obligations.CancelAndExpiryEndRecord := by
  intro s t p tag ticket
  have can (h : Taken s t p ⟨tag, .can ticket⟩) (ha : Attached t p) :
      exec (.can p tag ticket) s = .next (t.answerCan p ticket) :=
    coreRequest_attached h ha fun u => u.answerCan p ticket
  have expiry {u : State} (h : Free s t) (hu : t.takeExpiry ticket.toNat = some u) :
      exec (.expiryEvent ticket) s = .next u := coreEvent_free h (fun v => v.takeExpiry ticket.toNat) hu
  refine ⟨fun h ha hn => ?_, fun h hmade hn => ?_, fun w r hn => ?_⟩
  · rw [can h ha, State.answerCan_badTicket (State.ownRecord_eq_none.2 hn)]
  · exact expiry h (State.takeExpiry_unnamed hmade (State.resolveTicket_eq_none.2 hn))
  · have named : t.resolveTicket ticket.toNat = some (w, r) := State.resolveTicket_eq_some.2 hn
    have live : t.record? w = some r := hn.1
    have liveTaken : ({ t with expiryEvents := t.expiryEvents.erase ticket.toNat } : State).record? w = some r := live
    refine ⟨fun h ha hp => ⟨t.endRecord w r id, ?_, State.endRecord_effect live (State.removeRecord_live live)⟩,
      fun h hmade hr => expiry h (State.takeExpiry_early hmade named hr),
      fun h hmade hr => ⟨_, expiry h (State.takeExpiry_ends hmade named hr), State.endRecord_effect liveTaken ?_⟩⟩
    · rw [can h ha, State.answerCan_ends (State.ownRecord_eq_some.2 ⟨hn, hp⟩)]
    · rw [State.removeRecord_live liveTaken]
      rfl

end Sys2Proof.Machine
end

section
/-! Proofs, part 26: the tick as one update of the part (R58, R82, R105, R137; log entry 6). -/

namespace Sys2Proof.Machine

/-! ## Tables of counters -/

/-- A table of the part whose entries hold a counter each, beside the list of what is due: what a tick makes of an entry, and
the expiries that it then makes due. -/
structure CounterTable (β : Type) (n : Nat) where
  table : State → Vector β n
  update : State → Vector β n → List Due → State
  lower : β → β
  expired : Fin n → β → List Due
  table_update : ∀ s v l, table (update s v l) = v
  due_update : ∀ s v l, (update s v l).due = l
  update_update : ∀ s v w l m, update (update s v l) w m = update s w m
  update_self : ∀ s, update s (table s) s.due = s

namespace CounterTable

variable {β : Type} {n : Nat} (c : CounterTable β n) (s : State)

/-- One entry's counter is lowered. -/
def tick (s : State) (i : Fin n) : State :=
  c.update s ((c.table s).set i (c.lower (c.table s)[i])) (s.due ++ c.expired i (c.table s)[i])

/-- An entry without a running counter is passed over. -/
theorem tick_idle {i : Fin n} (hl : c.lower (c.table s)[i] = (c.table s)[i]) (he : c.expired i (c.table s)[i] = []) :
    c.tick s i = s := by
  have same : (c.table s).set i (c.table s)[i] = c.table s := Vector.set_getElem_self _
  rw [tick, hl, he, same, List.append_nil, c.update_self]

theorem foldl_tick_of_nodup (l : List (Fin n)) (hl : l.Nodup) : l.foldl c.tick s =
    c.update s (tabulate n fun i => if i ∈ l then c.lower (c.table s)[i] else (c.table s)[i])
      (s.due ++ l.flatMap fun i => c.expired i (c.table s)[i]) := by
  induction l generalizing s with
  | nil =>
    have same : (tabulate n fun i => if i ∈ [] then c.lower (c.table s)[i] else (c.table s)[i]) = c.table s :=
      State.ext_vector fun i => (State.tabulate_get _ i).trans (if_neg List.not_mem_nil)
    rw [same, List.flatMap_nil, List.append_nil, c.update_self]
    rfl
  | cons i rest ih =>
    obtain ⟨hi, hrest⟩ := List.nodup_cons.1 hl
    have entry (j : Fin n) : (c.table (c.tick s i))[j] =
        if j = i then c.lower (c.table s)[i] else (c.table s)[j] := by
      rw [tick, c.table_update, State.set_get]
    have later : (rest.flatMap fun j => c.expired j (c.table (c.tick s i))[j]) =
        rest.flatMap fun j => c.expired j (c.table s)[j] :=
      List.flatMap_congr fun j hj => by rw [entry, if_neg (ne_of_mem_of_not_mem hj hi)]
    have lowered : (tabulate n fun j =>
          if j ∈ rest then c.lower (c.table (c.tick s i))[j] else (c.table (c.tick s i))[j]) =
        tabulate n fun j => if j ∈ i :: rest then c.lower (c.table s)[j] else (c.table s)[j] :=
      State.ext_vector fun j => by
        rw [State.tabulate_get, State.tabulate_get, entry]
        by_cases h : j = i
        · simp [h, hi]
        · simp [h]
    rw [List.foldl_cons, ih _ hrest, later, lowered, tick, c.update_update, c.due_update, List.flatMap_cons,
      List.append_assoc]

/-- Every entry's counter is lowered once, and the expiries are due in the order of the entries. -/
theorem foldl_tick : (List.finRange n).foldl c.tick s =
    c.update s ((c.table s).map c.lower) (s.due ++ (List.finRange n).flatMap fun i => c.expired i (c.table s)[i]) := by
  have all : (tabulate n fun i => if i ∈ List.finRange n then c.lower (c.table s)[i] else (c.table s)[i]) =
      (c.table s).map c.lower := State.ext_vector fun i => by
    rw [State.tabulate_get, if_pos (List.mem_finRange i)]; simp
  rw [foldl_tick_of_nodup c s _ (List.nodup_finRange n), all]

end CounterTable

/-! ## The lease counters and the deadlines -/

/-- A counter that is stopped or at 0 is not lowered and does not expire. -/
theorem counter_idle {o : Option Nat} (h : ∀ k, o = some (k + 1) → False) : o.map (· - 1) = o ∧ o ≠ some 1 := by
  refine ⟨?_, h 0⟩
  match o with
  | none => rfl
  | some 0 => rfl
  | some (k + 1) => exact (h k rfl).elim

/-- A port controller with a running lease counter lowered (R105). -/
def PortCtl.lowered (c : PortCtl) : PortCtl := { c with lease := c.lease.map (· - 1) }

/-- A wait slot with its record's deadline lowered (R58). -/
def WaitSlot.lowered (x : WaitSlot) : WaitSlot :=
  { x with record := x.record.map fun r => { r with deadline := r.deadline.map (· - 1) } }

/-- The expiry that a tick makes of a port's lease counter (R105). -/
def PortCtl.expired (p : Port) (c : PortCtl) : List Due := if c.lease = some 1 then [.lease p] else []

/-- The expiry that a tick makes of a wait slot's deadline (R58). -/
def WaitSlot.expired (i : WaitNo) (x : WaitSlot) : List Due :=
  if x.record.bind WaitRecord.deadline = some 1 then [.deadline (x.generation * 32 + i.val)] else []

theorem PortCtl.idle {c : PortCtl} (p : Port) (h : ∀ k, c.lease = some (k + 1) → False) :
    c.lowered = c ∧ c.expired p = [] := by
  obtain ⟨same, hne⟩ := counter_idle h
  exact ⟨by rw [lowered, same], if_neg hne⟩

theorem WaitSlot.idle {x : WaitSlot} (i : WaitNo) (h : ∀ k, x.record.bind WaitRecord.deadline = some (k + 1) → False) :
    x.lowered = x ∧ x.expired i = [] := by
  obtain ⟨same, hne⟩ := counter_idle h
  refine ⟨?_, if_neg hne⟩
  obtain ⟨generation, record⟩ := x
  cases record with
  | none => rfl
  | some r =>
    rw [Option.bind_some] at same
    rw [lowered, Option.map_some, same]

/-- The lease counters of the port controllers (R105). -/
def leaseCounters : CounterTable PortCtl 4 where
  table := State.ports
  update s v l := { s with ports := v, due := l }
  lower := PortCtl.lowered
  expired := PortCtl.expired
  table_update _ _ _ := rfl
  due_update _ _ _ := rfl
  update_update _ _ _ _ _ := rfl
  update_self _ := rfl

/-- The deadlines of the wait records (R58). -/
def deadlineCounters : CounterTable WaitSlot 32 where
  table := State.waits
  update s v l := { s with waits := v, due := l }
  lower := WaitSlot.lowered
  expired := WaitSlot.expired
  table_update _ _ _ := rfl
  due_update _ _ _ := rfl
  update_update _ _ _ _ _ := rfl
  update_self _ := rfl

namespace State

/-- An expiry that a tick makes due when a counter reaches 0 (log entry 6). -/
theorem makeDue_if (t : State) (P : Prop) [Decidable P] (d : Due) :
    (if P then t.makeDue d else t) = { t with due := t.due ++ if P then [d] else [] } := by
  split
  · rfl
  · rw [List.append_nil]

variable (s : State)

/-- A port's lease counter is one of the counters a tick lowers (R105). -/
theorem tickLease_eq (p : Port) : s.tickLease p = leaseCounters.tick s p := by
  unfold tickLease
  split
  · rename_i k hk
    have lowered : (s.port p).lowered = { s.port p with lease := some k } := by rw [PortCtl.lowered, hk]; rfl
    have due : (s.port p).expired p = if k = 0 then [.lease p] else [] := by simp [PortCtl.expired, hk]
    show _ = ({ s with ports := s.ports.set p (s.port p).lowered, due := s.due ++ (s.port p).expired p } : State)
    rw [lowered, due]
    exact makeDue_if _ _ _
  · rename_i hrun
    obtain ⟨same, due⟩ := PortCtl.idle p hrun
    exact (leaseCounters.tick_idle s same due).symm

/-- A record's deadline is one of the counters a tick lowers (R58). -/
theorem tickDeadline_eq (i : WaitNo) : s.tickDeadline i = deadlineCounters.tick s i := by
  have idle (h : ∀ k, (s.waitSlot i).record.bind WaitRecord.deadline = some (k + 1) → False) :
      s = deadlineCounters.tick s i := by
    obtain ⟨same, due⟩ := WaitSlot.idle i h
    exact (deadlineCounters.tick_idle s same due).symm
  unfold tickDeadline
  split
  · rename_i hr
    have free : (s.waitSlot i).record = none := hr
    exact idle fun k h => by simp [free] at h
  · rename_i r hr
    have live : (s.waitSlot i).record = some r := hr
    split
    · rename_i k hk
      have lowered : (s.waitSlot i).lowered =
          { s.waitSlot i with record := some { r with deadline := some k } } := by
        rw [WaitSlot.lowered, live, Option.map_some, hk]; rfl
      have due : (s.waitSlot i).expired i = if k = 0 then [.deadline (s.ticketOf i)] else [] := by
        simp [WaitSlot.expired, live, hk, ticketOf]
      show _ = ({ s with
        waits := s.waits.set i (s.waitSlot i).lowered, due := s.due ++ (s.waitSlot i).expired i } : State)
      rw [lowered, due]
      exact makeDue_if _ _ _
    · rename_i hrun
      exact idle fun k h => hrun k (by rwa [live] at h)

end State

/-! ## The lines and the audit window -/

/-- What a tick makes due of the line of a group at a sampled level (R82, R83): a change of level, or else the expiry of a
timer that it brings to 0; nothing at the first sample after a start. -/
def SagLine.expired (g : SagGroup) (level : Level) (x : SagLine) : List Due :=
  if x.sampled = false then []
  else if x.seen ≠ level then [State.lineChange g level]
  else if x.timer = some 1 then [State.timerExpiry g x.state] else []

/-- The window with its remaining audit time lowered while it is open (R137). -/
def AuditWindow.lowered (w : AuditWindow) : AuditWindow :=
  if w.isOpen then { w with remaining := w.remaining - 1 } else w

/-- The expiry that a tick makes of the audit time (R137). -/
def AuditWindow.expired (w : AuditWindow) : List Due := if w.isOpen ∧ w.remaining = 1 then [.audit] else []

namespace State

variable (s : State)

/-- The line of a group after a tick that samples it at a level (R82, R95, R96). -/
def lineSampled (g : SagGroup) (level : Level) : SagLine :=
  if (s.line g).sampled = false then s.firstSample g level
  else if (s.line g).seen ≠ level then { s.line g with seen := level }
  else { s.line g with timer := (s.line g).timer.map (· - 1) }

theorem setLine_line (g : SagGroup) : s.setLine g (s.line g) = s := by cases g <;> rfl

/-- Sampling a line touches the line and what is due (R82, R95, R96). -/
theorem tickLine_eq (g : SagGroup) (level : Level) : tickLine level s g =
    { s.setLine g (s.lineSampled g level) with due := s.due ++ (s.line g).expired g level } := by
  unfold tickLine lineSampled SagLine.expired
  split
  · rw [List.append_nil]
    cases g <;> rfl
  · split
    · rw [makeDue, setLine_due]
    · split
      · rename_i k hk
        have due : (if (s.line g).timer = some 1 then [timerExpiry g (s.line g).state] else []) =
            if k = 0 then [timerExpiry g (s.line g).state] else [] := by simp [hk]
        rw [due, hk]
        refine (makeDue_if _ _ _).trans ?_
        rw [setLine_due]
        rfl
      · rename_i hrun
        obtain ⟨same, hne⟩ := counter_idle hrun
        rw [same, if_neg hne, List.append_nil, setLine_line]

/-- What a tick makes due of the lines: nothing while the part is UNCONFIGURED (R85). -/
def linesExpired (a b : Level) : List Due :=
  if s.unconfigured then [] else s.lineA.expired .a a ++ s.lineB.expired .b b

/-- Both lines are sampled, unless the part is UNCONFIGURED (R85). -/
theorem tickLines_eq (a b : Level) : s.tickLines a b = { s with
    lineA := if s.unconfigured then s.lineA else s.lineSampled .a a
    lineB := if s.unconfigured then s.lineB else s.lineSampled .b b
    due := s.due ++ s.linesExpired a b } := by
  unfold tickLines linesExpired
  split
  · rw [List.append_nil]
  · rw [tickLine_eq, tickLine_eq, ← List.append_assoc]
    rfl

/-- The remaining audit time is lowered while the window is open (R137). -/
theorem tickWindow_eq : s.tickWindow = { s with window := s.window.lowered, due := s.due ++ s.window.expired } := by
  unfold tickWindow AuditWindow.lowered AuditWindow.expired
  split
  · rename_i hopen
    split
    · rename_i k hk
      have due : (if s.window.isOpen ∧ s.window.remaining = 1 then [Due.audit] else []) =
          if k = 0 then [.audit] else [] := by simp [hopen, hk]
      rw [due, hk]
      exact makeDue_if _ _ _
    · rename_i hk
      have due : (if s.window.isOpen ∧ s.window.remaining = 1 then [Due.audit] else []) = [] := by simp [hk]
      have same : s.window.remaining - 1 = s.window.remaining := by omega
      rw [due, same, List.append_nil]
  · rename_i hopen
    rw [if_neg fun h => hopen h.1, List.append_nil]

/-! ## The tick as a whole -/

/-- What a tick makes due: the expiries of the lease counters, of the deadlines, of the lines and of the audit time. -/
def tickExpired (a b : Level) : List Due :=
  ((List.finRange 4).flatMap fun p => (s.port p).expired p) ++
    ((List.finRange 32).flatMap fun i => (s.waitSlot i).expired i) ++ s.linesExpired a b ++ s.window.expired

@[simp] theorem settle_due : s.settle.due = [] := by rw [settle_frame]

/-- A tick in one equation: the counters, the lines and the window of the settled part, and what is due (log entry 6). -/
theorem tickAll_eq (a b : Level) : s.tickAll a b = { s.settle with
    ports := s.settle.ports.map PortCtl.lowered
    waits := s.settle.waits.map WaitSlot.lowered
    lineA := if s.settle.unconfigured then s.settle.lineA else s.settle.lineSampled .a a
    lineB := if s.settle.unconfigured then s.settle.lineB else s.settle.lineSampled .b b
    window := s.settle.window.lowered
    due := s.settle.tickExpired a b } := by
  have leases : tickLease = leaseCounters.tick := funext fun t => funext t.tickLease_eq
  have deadlines : tickDeadline = deadlineCounters.tick := funext fun t => funext t.tickDeadline_eq
  have quiet : s.settle.due = [] := s.settle_due
  unfold tickAll
  generalize s.settle = t at quiet ⊢
  show (((List.finRange 32).foldl tickDeadline ((List.finRange 4).foldl tickLease t)).tickLines a b).tickWindow = _
  rw [leases, deadlines, leaseCounters.foldl_tick, quiet, deadlineCounters.foldl_tick, tickLines_eq, tickWindow_eq]
  rfl

end State

end Sys2Proof.Machine
end

section
/-! Proofs, part 27: what is due after a tick, and the statement on the tick (R58, R105, R137, R145, R152). -/

namespace Sys2Proof.Machine

/-! ## The members of what is due -/

/-- The line that a due step is about, if it is about one. -/
def Due.line : Due → Option SagGroup
  | .lease _ => none
  | .deadline _ => none
  | .lineAsserted g => some g
  | .lineDeasserted g => some g
  | .qualify g => some g
  | .restore g => some g
  | .audit => none

theorem line_lineChange (g : SagGroup) (level : Level) : (State.lineChange g level).line = some g := by cases level <;> rfl

theorem line_timerExpiry (g : SagGroup) (x : LineState) : (State.timerExpiry g x).line = some g := by cases x <;> rfl

theorem SagLine.line_of_mem_expired {x : SagLine} {g : SagGroup} {level : Level} {d : Due} (h : d ∈ x.expired g level) :
    d.line = some g := by
  unfold expired at h
  split at h
  · cases h
  · split at h
    · rw [List.mem_singleton.1 h, line_lineChange]
    · obtain ⟨_, hd⟩ := List.mem_ite_nil_right.1 h
      rw [List.mem_singleton.1 hd, line_timerExpiry]

/-- A step made due on a condition is due once at most. -/
theorem nodup_if (P : Prop) [Decidable P] (d : Due) : (if P then [d] else []).Nodup := by
  split
  · exact List.nodup_singleton _
  · exact List.nodup_nil

theorem SagLine.nodup_expired (x : SagLine) (g : SagGroup) (level : Level) : (x.expired g level).Nodup := by
  unfold expired
  split
  · exact List.nodup_nil
  · split
    · exact List.nodup_singleton _
    · exact nodup_if _ _

theorem PortCtl.mem_expired {c : PortCtl} {p : Port} {d : Due} : d ∈ c.expired p ↔ c.lease = some 1 ∧ d = .lease p := by
  simp [expired]

theorem WaitSlot.mem_expired {x : WaitSlot} {i : WaitNo} {d : Due} : d ∈ x.expired i ↔
    ∃ r ∈ x.record, r.deadline = some 1 ∧ d = .deadline (x.generation * 32 + i.val) := by
  simp [expired, Option.bind_eq_some_iff, ← exists_and_right, and_assoc]

theorem AuditWindow.mem_expired {w : AuditWindow} {d : Due} :
    d ∈ w.expired ↔ (w.isOpen = true ∧ w.remaining = 1) ∧ d = .audit := by
  simp [expired]

/-- When each entry of a table makes at most one step due, and different entries different ones, none is due twice. -/
theorem nodup_flatMap_if {n : Nat} (P : Fin n → Prop) [DecidablePred P] {f : Fin n → Due} (hf : Function.Injective f) :
    ((List.finRange n).flatMap fun i => if P i then [f i] else []).Nodup := by
  refine List.nodup_flatMap.2 ⟨fun i _ => nodup_if _ _, (List.nodup_finRange n).imp fun hne d hi hj => ?_⟩
  simp only [List.mem_ite_nil_right, List.mem_singleton] at hi hj
  exact hne (hf (hi.2.symm.trans hj.2))

theorem AuditWindow.lowered_open {w : AuditWindow} (h : w.isOpen = true) :
    w.lowered = { isOpen := true, remaining := w.remaining - 1 } := by
  rw [lowered, if_pos h, h]

theorem AuditWindow.lowered_closed {w : AuditWindow} (h : w.isOpen = false) : w.lowered = w := by
  rw [lowered, h, if_neg Bool.false_ne_true]

namespace State

variable {s : State} {a b : Level}

theorem line_of_mem_linesExpired {d : Due} (h : d ∈ s.linesExpired a b) : d.line ≠ none := by
  unfold linesExpired at h
  split at h
  · cases h
  · rcases List.mem_append.1 h with h | h
    · simp [SagLine.line_of_mem_expired h]
    · simp [SagLine.line_of_mem_expired h]

theorem nodup_linesExpired : (s.linesExpired a b).Nodup := by
  unfold linesExpired
  split
  · exact List.nodup_nil
  · refine (s.lineA.nodup_expired .a a).append (s.lineB.nodup_expired .b b) fun d hA hB => ?_
    have same := (SagLine.line_of_mem_expired hA).symm.trans (SagLine.line_of_mem_expired hB)
    cases same

/-- What is due after a tick, kind by kind. -/
theorem mem_tickExpired {d : Due} : d ∈ s.tickExpired a b ↔
    (∃ p, (s.port p).lease = some 1 ∧ d = .lease p) ∨
    (∃ i, ∃ r ∈ s.record? i, r.deadline = some 1 ∧ d = .deadline (s.ticketOf i)) ∨
    d ∈ s.linesExpired a b ∨ (s.window.isOpen = true ∧ s.window.remaining = 1) ∧ d = .audit := by
  simp only [tickExpired, List.mem_append, List.mem_flatMap, List.mem_finRange, true_and, PortCtl.mem_expired,
    WaitSlot.mem_expired, AuditWindow.mem_expired, or_assoc]
  rfl

/-- Slots differ in their tickets, whatever their generations (R40). -/
theorem ticketOf_injective : Function.Injective s.ticketOf := by
  intro i j h
  unfold ticketOf at h
  exact Fin.ext (by omega)

/-- No step is due twice after a tick: the kinds differ, and so do the entries of one kind. -/
theorem nodup_tickExpired : (s.tickExpired a b).Nodup := by
  have leases : ((List.finRange 4).flatMap fun p => (s.port p).expired p).Nodup :=
    nodup_flatMap_if _ fun p q h => Due.lease.inj h
  have deadlines : ((List.finRange 32).flatMap fun i => (s.waitSlot i).expired i).Nodup :=
    nodup_flatMap_if _ fun i j h => s.ticketOf_injective (Due.deadline.inj h)
  have audit : s.window.expired.Nodup := nodup_if _ _
  refine ((leases.append deadlines ?_).append nodup_linesExpired ?_).append audit ?_
  · intro d hlease hdeadline
    simp only [List.mem_flatMap, PortCtl.mem_expired, WaitSlot.mem_expired] at hlease hdeadline
    obtain ⟨p, _, _, rfl⟩ := hlease
    obtain ⟨i, _, r, _, _, h⟩ := hdeadline
    cases h
  · intro d htimer hline
    simp only [List.mem_append, List.mem_flatMap, PortCtl.mem_expired, WaitSlot.mem_expired] at htimer
    rcases htimer with ⟨p, _, _, rfl⟩ | ⟨i, _, r, _, _, rfl⟩
    · exact line_of_mem_linesExpired hline rfl
    · exact line_of_mem_linesExpired hline rfl
  · intro d hother haudit
    obtain ⟨_, rfl⟩ := AuditWindow.mem_expired.1 haudit
    simp only [List.mem_append, List.mem_flatMap, PortCtl.mem_expired, WaitSlot.mem_expired] at hother
    rcases hother with (⟨p, _, _, h⟩ | ⟨i, _, r, _, _, h⟩) | hline
    · cases h
    · cases h
    · exact line_of_mem_linesExpired hline rfl

theorem lease_mem_tickExpired {p : Port} : .lease p ∈ s.tickExpired a b ↔ (s.port p).lease = some 1 := by
  have noLine : .lease p ∉ s.linesExpired a b := fun h => line_of_mem_linesExpired h rfl
  simp [mem_tickExpired, noLine]

theorem deadline_mem_tickExpired {ticket : Nat} : .deadline ticket ∈ s.tickExpired a b ↔
    ∃ i, ∃ r ∈ s.record? i, r.deadline = some 1 ∧ ticket = (s.waitSlot i).generation * 32 + i.val := by
  have noLine : .deadline ticket ∉ s.linesExpired a b := fun h => line_of_mem_linesExpired h rfl
  simp [mem_tickExpired, noLine, ticketOf]

theorem audit_mem_tickExpired :
    .audit ∈ s.tickExpired a b ↔ s.window.isOpen = true ∧ s.window.remaining = 1 := by
  have noLine : .audit ∉ s.linesExpired a b := fun h => line_of_mem_linesExpired h rfl
  simp [mem_tickExpired, noLine]

/-- UNCONFIGURED no step about a line is due (R85). -/
theorem line_not_mem_tickExpired (h : s.unconfigured = true) {d : Due} (hd : d.line ≠ none) : d ∉ s.tickExpired a b := by
  have noLine : s.linesExpired a b = [] := if_pos h
  rw [mem_tickExpired, noLine]
  rintro (⟨p, _, rfl⟩ | ⟨i, r, _, _, rfl⟩ | hnil | ⟨_, rfl⟩)
  · exact hd rfl
  · exact hd rfl
  · cases hnil
  · exact hd rfl

/-! ## The tick divider -/

theorem tickDivider_eq (s : State) : s.tickDivider =
    if s.phase = .off ∨ s.phase = .coldWaiting ∨ s.phase = .coldStarting ∨
      (s.phase = .warmStarting ∧ s.signature = .differing) then 16000 else s.profile.clock := by
  unfold tickDivider loading
  cases s.phase <;> simp [Config.unloadedClock]

/-! ## The image slots -/

theorem slots_tickAll : (s.tickAll a b).slots = s.slots := by
  rw [tickAll_eq, settle_frame]

end State

/-- The timers of a tick leave every memory in canonical form. -/
theorem MemoryLaw.tickAll {s : State} (h : MemoryLaw s) (a b : Level) : MemoryLaw (s.tickAll a b) := by
  obtain ⟨hslots, hstaging⟩ := h
  refine ⟨fun i => ?_, ?_⟩
  · rw [State.imageSlot, State.slots_tickAll]
    exact hslots i
  · rw [State.tickAll_eq, State.settle_frame]
    exact hstaging

/-- Settles O42: the tick in one equation, with the disturbances of the slots after it. -/
theorem tickLowersEveryCounter : Obligations.TickLowersEveryCounter := by
  refine ⟨⟨rfl, State.tickDivider_eq⟩, fun s sagA sagB disturbed hphase => ?_⟩
  have hexec : exec (.tick ⟨sagA, sagB⟩ disturbed) s =
      .next (disturbed.foldl State.disturb (s.tickAll sagA sagB)) := if_pos hphase
  have himage (i : SlotNo) : (s.tickAll sagA sagB).imageSlot i = s.imageSlot i := by
    rw [State.imageSlot, State.slots_tickAll]; rfl
  obtain ⟨hframe, hstate⟩ := State.disturbed_frame (s.tickAll sagA sagB) disturbed
  have hread (h : MemoryLaw s) := State.read_disturbed (h.tickAll sagA sagB) disturbed
  have hquiet (h : disturbed = []) : (disturbed.foldl State.disturb (s.tickAll sagA sagB)).slots = s.slots := by
    rw [h, List.foldl_nil, State.slots_tickAll]
  simp only [himage] at hstate hread
  generalize disturbed.foldl State.disturb (s.tickAll sagA sagB) = u at *
  obtain ⟨slots, hu⟩ : ∃ slots, u = { s.tickAll sagA sagB with slots := slots } := ⟨_, hframe⟩
  rw [State.tickAll_eq] at hu
  subst hu
  have hversion : s.settle.profile = s.profile := by rw [State.settle_frame]
  have hports (p : Port) : (s.settle.ports.map PortCtl.lowered)[p] = (s.settle.port p).lowered :=
    Vector.getElem_map _ p.isLt
  have hwaits (i : WaitNo) : (s.settle.waits.map WaitSlot.lowered)[i] = (s.settle.waitSlot i).lowered :=
    Vector.getElem_map _ i.isLt
  refine ⟨_, hexec, rfl, hquiet, hstate, hread, hports, hwaits, AuditWindow.lowered_open, AuditWindow.lowered_closed,
    fun p => State.lease_mem_tickExpired, State.audit_mem_tickExpired, fun ticket => State.deadline_mem_tickExpired,
    State.nodup_tickExpired, fun hzero => ?_⟩
  have hunconfigured : s.settle.unconfigured = true := decide_eq_true (hversion ▸ hzero)
  have hline {d : Due} (hd : d.line ≠ none) : d ∉ s.settle.tickExpired sagA sagB :=
    State.line_not_mem_tickExpired hunconfigured hd
  exact ⟨if_pos hunconfigured, if_pos hunconfigured, fun g =>
    ⟨hline (Option.some_ne_none g), hline (Option.some_ne_none g), hline (Option.some_ne_none g),
      hline (Option.some_ne_none g)⟩⟩

end Sys2Proof.Machine
end

section
/-! Proofs, part 28: the requests on interlock tokens, and QPT (R67 to R77, R124, R186, R188 to R191). -/

namespace Sys2Proof.Machine

/-- Two masks that name the same tokens are equal. -/
theorem mask_eq {a b : Word} (h : ∀ n, names a n = true ↔ names b n = true) : a = b :=
  mask_ext fun n => Bool.eq_iff_iff.2 (h n)

namespace State

variable {t : State} {p : Port} {mask : Word}

/-! ## The masks of a port's tokens -/

theorem names_heldMask {n : TokenNo} : names (t.heldMask p) n = true ↔ t.token n = .held p := by simp [heldMask]

theorem names_auditMask {n : TokenNo} : names (t.auditMask p) n = true ↔ t.token n = .audit p := by simp [auditMask]

theorem names_freeMask {n : TokenNo} : names t.freeMask n = true ↔ t.token n = .free := by simp [freeMask]

/-- A conflict is a token that is neither FREE nor HELD by the requester (R69). -/
theorem isConflict_iff {n : TokenNo} : t.isConflict p n = true ↔ t.token n ≠ .free ∧ t.token n ≠ .held p := by
  unfold isConflict
  cases t.token n <;> simp

theorem names_conflictMask {n : TokenNo} :
    names (t.conflictMask p mask) n = true ↔ names mask n = true ∧ t.token n ≠ .free ∧ t.token n ≠ .held p := by
  rw [conflictMask, names_and, names_maskOf, Bool.and_eq_true, isConflict_iff]

/-- The tokens that a CLM claims: none in mode ALL with a conflict, every FREE one of the mask otherwise (R69, R70). -/
def claimedMask (t : State) (p : Port) (mask : Word) (all : Bool) : Word :=
  if all && t.conflictMask p mask != 0 then 0 else mask &&& t.freeMask

theorem names_claimedMask {all : Bool} {n : TokenNo} : names (t.claimedMask p mask all) n = true ↔
    names mask n = true ∧ t.token n = .free ∧ (all = false ∨ t.conflictMask p mask = 0) := by
  unfold claimedMask
  split
  · rename_i h
    rw [Bool.and_eq_true, bne_iff_ne] at h
    obtain ⟨hall, hconflict⟩ := h
    rw [names_zero, hall]
    exact ⟨fun hn => absurd hn Bool.false_ne_true,
      fun ⟨_, _, hnone⟩ => hnone.elim (absurd · Bool.false_ne_true.symm) (absurd · hconflict)⟩
  · rename_i h
    rw [Bool.and_eq_true, bne_iff_ne, not_and_or, Bool.not_eq_true, not_not] at h
    rw [names_and, Bool.and_eq_true, names_freeMask]
    exact ⟨fun ⟨hmask, hfree⟩ => ⟨hmask, hfree, h⟩, fun ⟨hmask, hfree, _⟩ => ⟨hmask, hfree⟩⟩

/-- The part once a CLM has claimed its tokens and the watch set has followed (R69 to R71). -/
def claimed (t : State) (p : Port) (mask : Word) (all watchFlag : Bool) : State :=
  (t.setTokens (t.claimedMask p mask all) (.held p)).watchAfterClaim p (t.conflictMask p mask) (t.claimedMask p mask all)
    watchFlag

theorem claim_eq (all watchFlag : Bool) : t.claim p mask all watchFlag = answered (t.claimed p mask all watchFlag) p
    (if t.conflictMask p mask = 0 then .ok else if all then .conflict else .partly)
    (maskField (t.claimedMask p mask all) ++ maskField (t.conflictMask p mask)) := rfl

/-! ## The checks that the token requests share (R67) -/

section
variable (rest : List (Bool × Status))

theorem tokenChecks_noRight (h : (t.portProfile p).interlock = false) :
    firstFailure (t.tokenChecks p mask ++ rest) = some .noRight := by
  unfold tokenChecks; rw [h]; rfl

theorem tokenChecks_badToken (h : (t.portProfile p).interlock = true) (hm : MaskTooHigh t mask) :
    firstFailure (t.tokenChecks p mask ++ rest) = some .badToken := by
  have hrange : t.maskInRange mask = false := by rw [← Bool.not_eq_true, maskInRange_iff, not_not]; exact hm
  unfold tokenChecks; rw [h, hrange]; rfl

theorem tokenChecks_pass (h : (t.portProfile p).interlock = true) (hm : ¬ MaskTooHigh t mask) :
    firstFailure (t.tokenChecks p mask ++ rest) = firstFailure rest := by
  unfold tokenChecks; rw [h, maskInRange_iff.2 hm]; rfl

end

theorem tokenChecks_nil : t.tokenChecks p mask ++ [] = t.tokenChecks p mask := List.append_nil _

end State

/-! ## QPT -/

/-- Settles O31: QPT is answered in every session state, with masks that name the port's tokens. -/
theorem queryPortReportsAndClearsMissed : Obligations.QueryPortReportsAndClearsMissed := by
  refine ⟨fun _ _ => ⟨rfl, rfl⟩, fun s t p tag held audit h hc hheld haudit => ?_⟩
  have hexec : exec (.qpt p tag) s = .next (t.answerQpt p) := coreRequest_anySession h hc rfl fun u => u.answerQpt p
  obtain rfl : held = t.heldMask p := mask_eq fun n => (hheld n).trans State.names_heldMask.symm
  obtain rfl : audit = t.auditMask p := mask_eq fun n => (haudit n).trans State.names_auditMask.symm
  rw [hexec]
  rfl

/-! ## CLM -/

namespace State

variable {t : State} {p : Port} {mask : Word} {mode watch : Byte}

/-- The checks of CLM, in the order of R188. -/
def clmChecks (t : State) (p : Port) (mask : Word) (mode watch : Byte) : List (Bool × Status) :=
  t.tokenChecks p mask ++ [(decide (mode.toNat ≤ 1), .badValue), (decide (watch.toNat ≤ 1), .badValue)]

theorem answerClm_refused {status : Status} (h : firstFailure (t.clmChecks p mask mode watch) = some status) :
    t.answerClm p mask mode watch = refusedWith t p status 4 := by
  unfold answerClm; rw [← clmChecks, h]; rfl

theorem clmChecks_badValue (h : (t.portProfile p).interlock = true) (hm : ¬ MaskTooHigh t mask)
    (hv : 1 < mode.toNat ∨ 1 < watch.toNat) : firstFailure (t.clmChecks p mask mode watch) = some .badValue := by
  rw [clmChecks, tokenChecks_pass _ h hm, firstFailure_cons, firstFailure_cons]
  by_cases hmode : mode.toNat ≤ 1
  · have hwatch : ¬ watch.toNat ≤ 1 := by omega
    simp [hmode, hwatch]
  · simp [hmode]

theorem answerClm_claims (h : (t.portProfile p).interlock = true) (hm : ¬ MaskTooHigh t mask)
    (hmode : mode.toNat ≤ 1) (hwatch : watch.toNat ≤ 1) :
    t.answerClm p mask mode watch = t.claim p mask (mode == 0) (watch == 1) := by
  have hpass : firstFailure (t.clmChecks p mask mode watch) = none := by
    rw [clmChecks, tokenChecks_pass _ h hm]
    simp [firstFailure, hmode, hwatch]
  unfold answerClm; rw [← clmChecks, hpass]

end State

/-- A mode byte that passed the checks is ALL or ANY (R188). -/
theorem mode_any_iff {mode : Byte} (h : mode.toNat ≤ 1) : mode = 1 ↔ (mode == 0) = false := by
  rw [beq_eq_false_iff_ne]
  constructor
  · rintro rfl; decide
  · intro h0
    have hne : mode.toNat ≠ 0 := fun hz => h0 (BitVec.eq_of_toNat_eq hz)
    exact BitVec.eq_of_toNat_eq (Nat.le_antisymm h (Nat.one_le_iff_ne_zero.2 hne))

/-- Settles O32: the masks of the statement are those of the model, since they name the same tokens. -/
theorem claimTakesFreeTokens : Obligations.ClaimTakesFreeTokens := by
  intro s t p tag mask mode watch h ha
  have hexec : exec (.clm p tag mask mode watch) s = .next (t.answerClm p mask mode watch) :=
    coreRequest_attached h ha fun u => u.answerClm p mask mode watch
  rw [hexec]
  refine ⟨fun hr => by rw [State.answerClm_refused (State.tokenChecks_noRight _ hr)],
    fun hr hm => by rw [State.answerClm_refused (State.tokenChecks_badToken _ hr hm)],
    fun hr hm hv => by rw [State.answerClm_refused (State.clmChecks_badValue hr hm hv)],
    fun conflicts claimed hr hm hmode hwatch hconflicts hclaimed => ?_⟩
  obtain rfl : conflicts = t.conflictMask p mask := mask_eq fun n => (hconflicts n).trans State.names_conflictMask.symm
  obtain rfl : claimed = t.claimedMask p mask (mode == 0) := mask_eq fun n => by
    rw [hclaimed n, mode_any_iff hmode, State.names_claimedMask]
  refine ⟨t.claimed p mask (mode == 0) (watch == 1), ?_, fun n => t.token_setTokens _ _ n, ?_⟩
  · rw [State.answerClm_claims hr hm hmode hwatch, State.claim_eq]
    simp only [beq_iff_eq]
  · unfold State.claimed State.watchAfterClaim State.setWatch
    simp only [beq_iff_eq]
    rfl

/-! ## DRP -/

namespace State

variable {t : State} {p : Port} {mask : Word}

theorem answerDrp_refused {status : Status} (h : firstFailure (t.tokenChecks p mask) = some status) :
    t.answerDrp p mask = refusedWith t p status 2 := by
  unfold answerDrp; rw [h]; rfl

theorem answerDrp_frees (h : (t.portProfile p).interlock = true) (hm : ¬ MaskTooHigh t mask) :
    t.answerDrp p mask = answered (t.freeTokens (mask &&& tokensOf t p)).closeIfDone p
      (if mask &&& ~~~(mask &&& tokensOf t p) = 0 then .ok else .partly)
      (maskField (mask &&& ~~~(mask &&& tokensOf t p))) := by
  unfold answerDrp
  rw [← tokenChecks_nil, tokenChecks_pass _ h hm, ← heldMask_or_auditMask]; rfl

end State

/-- Settles O33: one freeing of the requester's tokens of the mask, and the window's consequence. -/
theorem dropFreesOwnTokens : Obligations.DropFreesOwnTokens := by
  intro s t p tag mask h ha
  have hexec : exec (.drp p tag mask) s = .next (t.answerDrp p mask) :=
    coreRequest_attached h ha fun u => u.answerDrp p mask
  rw [hexec]
  refine ⟨fun hr => by rw [State.answerDrp_refused (State.tokenChecks_noRight [] hr)],
    fun hr hm => by rw [State.answerDrp_refused (State.tokenChecks_badToken [] hr hm)],
    fun freed hr hm hfreed => ?_⟩
  obtain rfl : freed = mask &&& tokensOf t p := mask_eq fun n => by
    rw [hfreed n, names_and, Bool.and_eq_true, State.names_tokensOf]
  refine ⟨_, by rw [State.answerDrp_frees hr hm], ?_⟩
  obtain ⟨htoken, hwatch, htransit, hframe⟩ := t.freeTokens_effect (mask &&& tokensOf t p)
  generalize t.freeTokens (mask &&& tokensOf t p) = v at htoken hwatch htransit hframe ⊢
  have hwindow : windowAfter v v = windowAfter t v := windowAfter_congr (by rw [hframe]) rfl
  rw [State.closeIfDone_eq, hwindow]
  refine ⟨htoken, hwatch, htransit, ?_⟩
  generalize hx : windowAfter t v = x
  have hafter : windowAfter t { v with window := x } = x := (windowAfter_congr rfl rfl).trans hx
  rw [hafter]
  exact congrArg (fun y : State => { y with window := x }) hframe

/-! ## CNT -/

namespace State

variable {t : State} {p : Port} {mask : Word}

theorem answerCnt_refused {status : Status} (h : firstFailure (t.tokenChecks p mask) = some status) :
    t.answerCnt p mask = refusedWith t p status 2 := by
  unfold answerCnt; rw [h]; rfl

/-- The part once the tokens of a mask are confirmed: HELD by the port, and out of its watch set (R75). -/
def confirmed (t : State) (p : Port) (m : Word) : State :=
  (t.setTokens m (.held p)).setWatch p (t.watch p &&& ~~~m)

theorem answerCnt_confirms (h : (t.portProfile p).interlock = true) (hm : ¬ MaskTooHigh t mask) :
    t.answerCnt p mask = answered (t.confirmed p (mask &&& t.auditMask p)).closeIfDone p
      (if mask &&& ~~~(mask &&& t.auditMask p) = 0 then .ok else .partly)
      (maskField (mask &&& ~~~(mask &&& t.auditMask p))) := by
  unfold answerCnt
  rw [← tokenChecks_nil, tokenChecks_pass _ h hm]; rfl

end State

/-- Settles O34: the requester's AUDIT tokens of the mask are confirmed, and the window's consequence is drawn. -/
theorem confirmMakesTokensHeld : Obligations.ConfirmMakesTokensHeld := by
  intro s t p tag mask h ha
  have hexec : exec (.cnt p tag mask) s = .next (t.answerCnt p mask) :=
    coreRequest_attached h ha fun u => u.answerCnt p mask
  rw [hexec]
  refine ⟨fun hr => by rw [State.answerCnt_refused (State.tokenChecks_noRight [] hr)],
    fun hr hm => by rw [State.answerCnt_refused (State.tokenChecks_badToken [] hr hm)],
    fun confirmed hr hm hconfirmed => ?_⟩
  obtain rfl : confirmed = mask &&& t.auditMask p := mask_eq fun n => by
    rw [hconfirmed n, names_and, Bool.and_eq_true, State.names_auditMask]
  refine ⟨_, by rw [State.answerCnt_confirms hr hm], ?_⟩
  rw [State.closeIfDone_eq]
  exact ⟨fun n => t.token_setTokens _ _ n, rfl⟩

/-! ## UWT -/

namespace State

variable {t : State} {p : Port} {mask : Word}

theorem answerUwt_refused {status : Status} (h : firstFailure (t.tokenChecks p mask) = some status) :
    t.answerUwt p mask = refusedWith t p status 2 := by
  unfold answerUwt; rw [h]; rfl

theorem answerUwt_removes (h : (t.portProfile p).interlock = true) (hm : ¬ MaskTooHigh t mask) :
    t.answerUwt p mask =
      answered (t.setWatch p (t.watch p &&& ~~~mask)) p .ok (maskField (t.watch p &&& ~~~mask)) := by
  unfold answerUwt
  rw [← tokenChecks_nil, tokenChecks_pass _ h hm]; rfl

/-- A freeing tells nothing to a port that watches none of the freed tokens (R73). -/
theorem freeTokens_tells_no_stranger {freed : Word} (h : t.watch p &&& freed = 0) :
    ((t.freeTokens freed).transit.filter fun x => x.1 == p) = t.transit.filter fun x => x.1 == p := by
  obtain ⟨_, _, htransit, _⟩ := t.freeTokens_effect freed
  rw [htransit, List.filter_append, List.append_right_eq_self, List.filter_eq_nil_iff]
  intro x hx hp
  obtain ⟨q, hq, rfl⟩ := List.mem_map.1 hx
  obtain rfl : q = p := beq_iff_eq.1 hp
  exact absurd h (bne_iff_ne.1 (List.mem_filter.1 hq).2)

end State

/-- Settles O35: what UWT leaves in the watch set and a later freeing of its tokens have no token in common. -/
theorem unwatchRemovesTokens : Obligations.UnwatchRemovesTokens := by
  intro s t p tag mask h ha
  have hexec : exec (.uwt p tag mask) s = .next (t.answerUwt p mask) :=
    coreRequest_attached h ha fun u => u.answerUwt p mask
  rw [hexec]
  refine ⟨fun hr => by rw [State.answerUwt_refused (State.tokenChecks_noRight [] hr)],
    fun hr hm => by rw [State.answerUwt_refused (State.tokenChecks_badToken [] hr hm)],
    fun hr hm => ⟨_, rfl, State.answerUwt_removes hr hm, fun freed hfreed => State.freeTokens_tells_no_stranger ?_⟩⟩
  have hwatch : (t.answerUwt p mask).watch p = t.watch p &&& ~~~mask := by
    rw [State.answerUwt_removes hr hm]
    exact (t.watch_setWatch p p _).trans (if_pos rfl)
  rw [hwatch, BitVec.and_assoc, BitVec.and_comm (~~~mask), hfreed]
  exact BitVec.and_zero

end Sys2Proof.Machine
end

section
/-! Proofs, part 29: the laws of the profile store, the notice queues and the watch sets (R71, R117, R144), and what the
operations of the part do to them. -/

namespace Sys2Proof.Machine

/-- From `s` to `t` the memories keep their canonical form, and bits of the slots turn from 1 to 0 alone (R144). -/
def KeepsMemory (s t : State) : Prop :=
  MemoryLaw s → MemoryLaw t ∧ ∀ i, OnlyProgrammed (s.imageSlot i).contents (t.imageSlot i).contents

/-- From `s` to `t` the laws of the memories, of the notice queues and of the watch sets are kept. -/
structure KeepsLaws (s t : State) : Prop where
  memory : KeepsMemory s t
  notice : NoticeLaw s → NoticeLaw t
  watch : WatchLaw s → WatchLaw t

/-- What the three laws look at: the slots, the staging buffer, the port controllers, the tokens and the watch sets. -/
def State.parts (s : State) : Vector ImageSlot 4 × Memory × Vector PortCtl 4 × Vector Token 16 × Vector Word 4 :=
  (s.slots, s.staging, s.ports, s.tokens, s.watches)

namespace KeepsMemory

variable {s t : State}

/-- Whatever becomes of the kept states, the contents of the slots stay. -/
theorem of_contents (hcontents : ∀ i, (t.imageSlot i).contents = (s.imageSlot i).contents)
    (hstaging : s.staging.wf → t.staging.wf) : KeepsMemory s t := by
  rintro ⟨hslots, hbuffer⟩
  exact ⟨⟨fun i => hcontents i ▸ hslots i, hstaging hbuffer⟩, fun i => hcontents i ▸ .refl _⟩

theorem of_slots (hslots : t.slots = s.slots) (hstaging : s.staging.wf → t.staging.wf) : KeepsMemory s t :=
  of_contents (fun i => by simp only [State.imageSlot, hslots]) hstaging

/-- One slot's bits turn from 1 to 0 alone (R144). -/
theorem setImageSlot {i : SlotNo} {x : ImageSlot}
    (hx : (s.imageSlot i).contents.wf → x.contents.wf ∧ OnlyProgrammed (s.imageSlot i).contents x.contents) :
    KeepsMemory s (s.setImageSlot i x) := by
  intro hs
  obtain ⟨hslots, hstaging⟩ := hs
  obtain ⟨hwf, hbits⟩ := hx (hslots i)
  refine ⟨⟨fun j => ?_, hstaging⟩, fun j => ?_⟩
  · rw [State.imageSlot_setImageSlot]
    split
    · exact hwf
    · exact hslots j
  · rw [State.imageSlot_setImageSlot]
    split
    · rename_i hj; rw [hj]; exact hbits
    · exact .refl _

end KeepsMemory

theorem NoticeLaw.of_ports {s t : State} (h : t.ports = s.ports) (hs : NoticeLaw s) : NoticeLaw t := fun p => by
  have hp : t.port p = s.port p := by simp only [State.port, h]
  rw [hp]; exact hs p

/-- Tokens that are watched in `t` were watched in `s`, and are what they were there. -/
theorem WatchLaw.of_fewer {s t : State}
    (h : ∀ p n, names (t.watch p) n → names (s.watch p) n ∧ t.token n = s.token n) (hs : WatchLaw s) : WatchLaw t := by
  intro p n hn
  obtain ⟨hwatched, htoken⟩ := h p n hn
  rw [htoken]; exact hs p n hwatched

theorem WatchLaw.of_tables {s t : State} (hw : t.watches = s.watches) (ht : t.tokens = s.tokens) (hs : WatchLaw s) :
    WatchLaw t := hs.of_fewer fun p n hn => by
  simp only [State.watch, hw, State.token, ht] at hn ⊢
  exact ⟨hn, trivial⟩

/-- With nothing watched the law holds, whatever the tokens are. -/
theorem WatchLaw.of_empty {t : State} (h : ∀ p, t.watch p = 0) : WatchLaw t := fun p n hn => by
  rw [h p, names_zero] at hn; cases hn

namespace KeepsLaws

variable {s t u : State}

theorem refl (s : State) : KeepsLaws s s := ⟨fun h => ⟨h, fun _ => .refl _⟩, id, id⟩

theorem trans (h : KeepsLaws s t) (k : KeepsLaws t u) : KeepsLaws s u := by
  refine ⟨fun hs => ?_, fun hs => k.notice (h.notice hs), fun hs => k.watch (h.watch hs)⟩
  obtain ⟨ht, hbits⟩ := h.memory hs
  obtain ⟨hu, kbits⟩ := k.memory ht
  exact ⟨hu, fun i => (hbits i).trans (kbits i)⟩

theorem foldl {α : Type} {f : State → α → State} (hf : ∀ s x, KeepsLaws s (f s x)) (l : List α) (s : State) :
    KeepsLaws s (l.foldl f s) := by
  induction l generalizing s with
  | nil => exact refl s
  | cons x rest ih => exact (hf s x).trans (ih (f s x))

/-- A change of the memories alone. -/
theorem of_memory (h : KeepsMemory s t) (hports : t.ports = s.ports) (htokens : t.tokens = s.tokens)
    (hwatches : t.watches = s.watches) : KeepsLaws s t :=
  ⟨h, .of_ports hports, .of_tables hwatches htokens⟩

/-- A change of the port controllers alone. -/
theorem of_notices (h : NoticeLaw s → NoticeLaw t) (hslots : t.slots = s.slots) (hstaging : t.staging = s.staging)
    (htokens : t.tokens = s.tokens) (hwatches : t.watches = s.watches) : KeepsLaws s t :=
  ⟨.of_slots hslots fun hs => hstaging ▸ hs, h, .of_tables hwatches htokens⟩

/-- A change of the tokens and the watch sets alone. -/
theorem of_watches (h : WatchLaw s → WatchLaw t) (hslots : t.slots = s.slots) (hstaging : t.staging = s.staging)
    (hports : t.ports = s.ports) : KeepsLaws s t :=
  ⟨.of_slots hslots fun hs => hstaging ▸ hs, .of_ports hports, h⟩

/-- A change of nothing that the laws look at. -/
theorem of_parts (h : t.parts = s.parts) : KeepsLaws s t := by
  simp only [State.parts, Prod.mk.injEq] at h
  obtain ⟨hslots, hstaging, hports, htokens, hwatches⟩ := h
  exact of_notices (.of_ports hports) hslots hstaging htokens hwatches

end KeepsLaws

namespace State

variable (s : State)

/-! ## The operations of the core's tables -/

@[simp] theorem parts_post (p : Port) (x : Notice) : (s.post p x).parts = s.parts := rfl
@[simp] theorem parts_replyWith (p : Port) (x : Status) (l : List Byte) : (s.replyWith p x l).parts = s.parts := rfl
@[simp] theorem parts_setMark (n : PoolNo) (b : Bool) : (s.setMark n b).parts = s.parts := rfl
@[simp] theorem parts_modPool (n : PoolNo) (f : Pool → Pool) : (s.modPool n f).parts = s.parts := rfl
@[simp] theorem parts_putGrant (i : GrantNo) (g : Grant) : (s.putGrant i g).parts = s.parts := rfl
@[simp] theorem parts_queueRecord (w : WaitNo) (r : WaitRecord) : (s.queueRecord w r).parts = s.parts := rfl
@[simp] theorem parts_setLine (g : SagGroup) (x : SagLine) : (s.setLine g x).parts = s.parts := by cases g <;> rfl

@[simp] theorem parts_createGrant (i : GrantNo) (g : Grant) : (s.createGrant i g).parts = s.parts := by
  rw [createGrant_frame]; rfl

@[simp] theorem parts_growGrant (i : GrantNo) (g : Grant) (v : Nat) : (s.growGrant i g v).parts = s.parts := by
  rw [growGrant_frame]; rfl

@[simp] theorem parts_shrinkGrant (i : GrantNo) (g : Grant) (v : Nat) : (s.shrinkGrant i g v).parts = s.parts := by
  rw [shrinkGrant_frame]; rfl

@[simp] theorem parts_freeGrant (i : GrantNo) : (s.freeGrant i).parts = s.parts := by
  cases h : s.grant? i with
  | none => rw [freeGrant_free h]
  | some g => rw [freeGrant_live h]; rfl

@[simp] theorem parts_removeRecord (w : WaitNo) : (s.removeRecord w).parts = s.parts := by
  cases h : s.record? w with
  | none => rw [removeRecord_free h]
  | some r => rw [removeRecord_live h]; rfl

@[simp] theorem parts_closeIfDone : s.closeIfDone.parts = s.parts := by rw [closeIfDone_eq]; rfl

@[simp] theorem parts_detachBare : s.detachBare.parts = s.parts := by
  obtain ⟨_, hframe⟩ := s.detachBare_effect
  generalize s.detachBare = t at hframe ⊢
  rw [hframe]; rfl

@[simp] theorem parts_servicePass (roots : List PoolNo) : (s.servicePass roots).parts = s.parts := by
  obtain ⟨hframe, _⟩ := s.onlyServes_servicePass roots
  generalize s.servicePass roots = t at hframe ⊢
  rw [hframe]; rfl

@[simp] theorem parts_shed (n : PoolNo) : (s.shed n).parts = s.parts := by
  obtain ⟨hframe, _⟩ := s.onlySheds_shed n
  generalize s.shed n = t at hframe ⊢
  rw [hframe]; rfl

theorem parts_foldl {α : Type} {f : State → α → State} (hf : ∀ s x, (f s x).parts = s.parts) (l : List α) :
    ∀ s : State, (l.foldl f s).parts = s.parts := by
  induction l with
  | nil => exact fun _ => rfl
  | cons x rest ih => exact fun s => (ih (f s x)).trans (hf s x)

/-! ## The memories -/

theorem keepsLaws_disturb (d : Disturbance) : KeepsLaws s (s.disturb d) :=
  .of_memory (.setImageSlot fun hwf => ⟨Memory.program_wf hwf d.address.isLt, .of_program hwf _ _⟩) rfl rfl rfl

/-- However a seal is cut, it programs its slot (R144, R158). -/
theorem keepsLaws_abortSeal (cut : SealCut) : KeepsLaws s (s.abortSeal cut) := by
  unfold abortSeal
  split
  · exact .refl s
  · rename_i w _
    have programs := KeepsMemory.setImageSlot (s := s) (i := w.slot)
      (x := { contents := sealCutContents w.image cut (s.imageSlot w.slot).contents
              state := if sealBegun w.image cut then .damaged else (s.imageSlot w.slot).state })
      fun hwf => ⟨Memory.sealCutContents_wf cut hwf, .of_cutSeal w.image cut hwf⟩
    exact .of_memory programs rfl rfl rfl

/-- A start classifies the slots and leaves their contents (R145); it sets the staging buffer to 0xFF (R155). -/
theorem keepsLaws_beginStart : KeepsLaws s s.beginStart :=
  .of_memory (.of_contents (fun i => by rw [imageSlot_beginStart]) fun _ => rfl) rfl rfl rfl

/-- STG writes the 16 bytes of a block of the staging buffer (R155). -/
theorem keepsLaws_answerStg (p : Port) (block : Byte) (data : List Byte) : KeepsLaws s (s.answerStg p block data) := by
  unfold answerStg
  split
  · exact .of_parts rfl
  · rename_i hblock
    have hlength := List.length_take_le 16 data
    exact .of_memory (.of_slots rfl fun hwf => Memory.writeAll_wf hwf (by omega)) rfl rfl rfl

/-! ## The port controllers -/

variable (p : Port)

theorem keepsLaws_modPort {f : PortCtl → PortCtl} (hf : (s.port p).notices.length ≤ Config.noticeLimit →
    (f (s.port p)).notices.length ≤ Config.noticeLimit) : KeepsLaws s (s.modPort p f) := by
  refine .of_notices (fun hs q => ?_) rfl rfl rfl rfl
  rw [port_modPort]
  split
  · exact hf (hs p)
  · exact hs q

/-- A change of a port controller that leaves its notice queue. -/
theorem keepsLaws_modPort_of_notices {f : PortCtl → PortCtl}
    (hf : ∀ c, (f c).notices = c.notices := by intro c; rfl) : KeepsLaws s (s.modPort p f) :=
  s.keepsLaws_modPort p fun hs => by rw [hf]; exact hs

theorem keepsLaws_store (n : Notice) : KeepsLaws s (s.modPort p (·.store n)) :=
  s.keepsLaws_modPort p ((s.port p).store_effect n).2

theorem keepsLaws_deliverPosts : KeepsLaws s s.deliverPosts := by
  have cleared : KeepsLaws s { s with transit := [] } := .of_parts rfl
  exact cleared.trans (.foldl (fun t (x : Port × Notice) => t.keepsLaws_store x.1 x.2) s.transit _)

theorem keepsLaws_placeReply (x : Status) (tag : Byte) (l : List Byte) : KeepsLaws s (s.placeReply p x tag l) :=
  s.keepsLaws_modPort_of_notices p

theorem keepsLaws_placeAnswer : KeepsLaws s s.placeAnswer := by
  unfold placeAnswer
  split
  · exact .refl s
  · rename_i a _
    have cleared : KeepsLaws s { s with answering := none } := .of_parts rfl
    exact (cleared.trans (keepsLaws_modPort_of_notices _ a.port)).trans (keepsLaws_placeReply _ _ _ _ _)

theorem keepsLaws_runDue (d : Due) : KeepsLaws s (s.runDue d) := by
  cases d with
  | lease p =>
    exact s.keepsLaws_modPort_of_notices p (f := fun c => { c with lease := none, handedOn := c.handedOn ++ [.lapse] })
  | deadline ticket => exact .of_parts rfl
  | audit => exact .of_parts rfl
  | lineAsserted g => refine .of_parts ?_; simp only [runDue, lineAsserts]; split <;> simp
  | lineDeasserted g => refine .of_parts ?_; simp only [runDue, lineDeasserts]; split <;> simp
  | qualify g =>
    refine .of_parts ?_
    simp only [runDue, qualifyRunsOut]
    split
    · exact s.parts_setLine g _
    all_goals rfl
  | restore g =>
    refine .of_parts ?_
    simp only [runDue, restoreRunsOut]
    split
    · exact s.parts_setLine g _
    all_goals rfl

theorem keepsLaws_settle : KeepsLaws s s.settle := by
  have cleared : KeepsLaws s { s with due := [] } := .of_parts rfl
  exact cleared.trans (.foldl keepsLaws_runDue s.due _)

/-- A work item begins with what was due and what the item before left (log entries 5 and 6). -/
theorem keepsLaws_ready : KeepsLaws s s.ready :=
  (s.keepsLaws_settle.trans (keepsLaws_deliverPosts _)).trans (keepsLaws_placeAnswer _)

theorem keepsLaws_took : KeepsLaws s (s.took p) := by
  have taken := s.keepsLaws_modPort_of_notices p (f := fun c => { c with handedOn := c.handedOn.tail })
  exact taken.trans (.of_parts rfl)

/-- A tick lowers counters; nothing else of a port controller moves (R105). -/
theorem keepsLaws_tickAll (a b : Level) : KeepsLaws s (s.tickAll a b) := by
  rw [tickAll_eq]
  refine s.keepsLaws_settle.trans ?_
  generalize s.settle = t
  refine .of_notices (fun ht q => ?_) rfl rfl rfl rfl
  have hport : (t.ports.map PortCtl.lowered)[q] = (t.port q).lowered := Vector.getElem_map _ q.isLt
  show (t.ports.map PortCtl.lowered)[q].notices.length ≤ _
  rw [hport]
  exact ht q

/-- With every port controller as after a start no notice is held (R128, R136, R172). -/
theorem noticeLaw_of_freshPorts {t : State} (h : FreshPorts s t) : NoticeLaw t := fun q => by
  rw [h q]; exact Nat.zero_le _

theorem keepsLaws_discardWork : KeepsLaws s s.discardWork := by
  obtain ⟨hfresh, _⟩ := s.discardWork_effect
  exact .of_notices (fun _ => s.noticeLaw_of_freshPorts hfresh) rfl rfl rfl rfl

theorem keepsLaws_cutTransactions : KeepsLaws s s.cutTransactions := by
  refine .of_notices (fun hs q => ?_) rfl rfl rfl rfl
  have hport : s.cutTransactions.port q = { s.port q with
      transaction := (s.port q).transaction.map fun t => if t.kind = .notReady then t else { t with kind := .cut } } :=
    tabulate_get _ q
  rw [hport]
  exact hs q

/-! ## The tokens and the watch sets -/

theorem keepsLaws_setWatch {m : Word} (h : ∀ n, names m n = true → names (s.watch p) n = true) :
    KeepsLaws s (s.setWatch p m) := by
  refine .of_watches (.of_fewer fun q n hn => ⟨?_, rfl⟩) rfl rfl rfl
  rw [watch_setWatch] at hn
  split at hn
  · rename_i hq; rw [hq]; exact h n hn
  · exact hn

/-- Freed tokens leave every watch set (R73). -/
theorem keepsLaws_freeTokens (m : Word) : KeepsLaws s (s.freeTokens m) := by
  obtain ⟨htoken, hwatch, _, hframe⟩ := s.freeTokens_effect m
  generalize s.freeTokens m = t at htoken hwatch hframe
  refine .of_watches (.of_fewer fun q n hn => ?_) (by rw [hframe]) (by rw [hframe]) (by rw [hframe])
  rw [hwatch q, names_and, names_not, Bool.and_eq_true, Bool.not_eq_true'] at hn
  obtain ⟨hwatched, hkept⟩ := hn
  exact ⟨hwatched, (htoken n).trans (if_neg (by rw [hkept]; exact Bool.false_ne_true))⟩

/-- A claimed token was FREE, so no port watched it; a conflict that joins the watch set is held by another port or AUDIT
(R69, R71). -/
theorem keepsLaws_claimed (mask : Word) (all watchFlag : Bool) : KeepsLaws s (s.claimed p mask all watchFlag) := by
  refine .of_watches (fun hs q n hn => ?_) rfl rfl rfl
  have htoken : (s.claimed p mask all watchFlag).token n =
      if names (s.claimedMask p mask all) n then .held p else s.token n := s.token_setTokens _ _ n
  have hwatch : (s.claimed p mask all watchFlag).watch q = if q = p then
      (s.watch p ||| (if watchFlag then s.conflictMask p mask else 0)) &&& ~~~s.claimedMask p mask all
      else s.watch q := watch_setWatch (s.setTokens _ _) p q _
  have unclaimed {r : Port} (hr : names (s.watch r) n = true) : ¬ names (s.claimedMask p mask all) n = true := fun hc =>
    (hs r n hr).1 (names_claimedMask.1 hc).2.1
  rw [htoken]
  rw [hwatch] at hn
  split at hn
  · rename_i hq
    subst hq
    rw [names_and, names_not, names_or, Bool.and_eq_true, Bool.not_eq_true', Bool.or_eq_true] at hn
    obtain ⟨hwatched, hkept⟩ := hn
    rw [hkept, if_neg Bool.false_ne_true]
    rcases hwatched with hold | hjoins
    · exact hs q n hold
    · cases watchFlag with
      | true => exact (names_conflictMask.1 hjoins).2
      | false => exact absurd (hjoins.symm.trans (names_zero n)) Bool.false_ne_true.symm
  · rw [if_neg (unclaimed hn)]
    exact hs q n hn

/-- A confirmed token leaves the watch set of its holder, and is HELD for every other port (R75). -/
theorem keepsLaws_confirmed {m : Word} (hm : ∀ n, names m n = true → s.token n = .audit p) :
    KeepsLaws s (s.confirmed p m) := by
  refine .of_watches (fun hs q n hn => ?_) rfl rfl rfl
  have htoken : (s.confirmed p m).token n = if names m n then .held p else s.token n := s.token_setTokens _ _ n
  have hwatch : (s.confirmed p m).watch q = if q = p then s.watch p &&& ~~~m else s.watch q :=
    watch_setWatch (s.setTokens _ _) p q _
  rw [htoken]
  rw [hwatch] at hn
  split at hn
  · rename_i hq
    subst hq
    rw [names_and, names_not, Bool.and_eq_true, Bool.not_eq_true'] at hn
    obtain ⟨hwatched, hkept⟩ := hn
    rw [hkept, if_neg Bool.false_ne_true]
    exact hs q n hwatched
  · rename_i hq
    split
    · exact ⟨Token.noConfusion, fun h => hq (Token.held.inj h).symm⟩
    · exact hs q n hn

end State

end Sys2Proof.Machine
end

section
/-! Proofs, part 30: every step keeps the laws of the profile store, the notice queues and the watch sets (R71, R117, R144). -/

namespace Sys2Proof.Machine

namespace State

variable (s : State) (p : Port)

/-! ## The link's own frames -/

theorem keepsLaws_reloadLease : KeepsLaws s (s.reloadLease p) := by
  have reloads := s.keepsLaws_modPort_of_notices p (f := fun c => { c with lease := reloaded s p })
  exact reloads.trans (.of_parts rfl)

theorem keepsLaws_takeNop (tag : Byte) : KeepsLaws s (s.takeNop p tag) := by
  refine (s.keepsLaws_reloadLease p).trans ?_
  unfold takeNop
  dsimp only
  split <;> exact keepsLaws_placeReply _ p _ _ _

theorem keepsLaws_takeRpt (tag : Byte) : KeepsLaws s (s.takeRpt p tag) := by
  refine (s.keepsLaws_reloadLease p).trans ?_
  unfold takeRpt
  dsimp only
  split
  · exact keepsLaws_placeReply _ p _ _ _
  · split <;> exact keepsLaws_placeReply _ p _ _ _

/-- An NTF takes the oldest notice out of the queue (R122). -/
theorem keepsLaws_takeNtf (tag : Byte) : KeepsLaws s (s.takeNtf p tag) := by
  refine (s.keepsLaws_reloadLease p).trans ?_
  unfold takeNtf
  dsimp only
  split
  · exact keepsLaws_placeReply _ p _ _ _
  · split
    · exact keepsLaws_placeReply _ p _ _ _
    · rename_i n rest hqueue
      refine (keepsLaws_modPort _ p fun hs => ?_).trans (keepsLaws_placeReply _ p _ _ _)
      rw [hqueue] at hs
      exact Nat.le_of_succ_le hs

theorem keepsLaws_takeRequest (r : Request) : KeepsLaws s (s.takeRequest p r) := by
  refine (s.keepsLaws_reloadLease p).trans ?_
  unfold takeRequest
  dsimp only
  split
  · exact keepsLaws_placeReply _ p _ _ _
  · exact keepsLaws_modPort_of_notices _ p

theorem keepsLaws_closeTransaction (l : List Byte) : KeepsLaws s (s.closeTransaction p l) :=
  s.keepsLaws_modPort_of_notices p (f := fun c => { c with transaction := none, miso := l })

end State

theorem csnRise_keepsLaws {s : State} {p : Port} {mosi : List Byte} {act : State → State}
    (h : ∀ t, KeepsLaws t (act t)) : Answers (KeepsLaws s) (csnRise s p mosi act) := by
  rcases csnRise_next s p mosi act with he | ⟨t, ⟨x, _, _, rfl⟩, he⟩
  · rw [he]; exact .next (.refl s)
  · rw [he]; exact .next ((s.keepsLaws_modPort_of_notices p).trans (h _))

theorem dueStep_keepsLaws (s : State) (d : Due) : Answers (KeepsLaws s) (dueStep s d) := by
  rw [dueStep_next]
  refine .next ?_
  split
  · have erased : KeepsLaws s { s with due := s.due.erase d } := .of_parts rfl
    exact erased.trans (State.keepsLaws_runDue _ d)
  · exact .refl s

section
variable (s : State) (p : Port) (mosi : List Byte)

theorem execNop_keepsLaws : Answers (KeepsLaws s) (execNop p mosi s) := by
  unfold execNop
  split
  · exact csnRise_keepsLaws fun t => t.keepsLaws_takeNop p _
  · exact .next (.refl s)

theorem execRpt_keepsLaws : Answers (KeepsLaws s) (execRpt p mosi s) := by
  unfold execRpt
  split
  · exact csnRise_keepsLaws fun t => t.keepsLaws_takeRpt p _
  · exact .next (.refl s)

theorem execNtf_keepsLaws : Answers (KeepsLaws s) (execNtf p mosi s) := by
  unfold execNtf
  split
  · exact csnRise_keepsLaws fun t => t.keepsLaws_takeNtf p _
  · exact .next (.refl s)

theorem execFill_keepsLaws : Answers (KeepsLaws s) (execFill p mosi s) := by
  unfold execFill
  split
  · exact csnRise_keepsLaws .refl
  · exact csnRise_keepsLaws .refl
  · exact .next (.refl s)

theorem execRequestTaken_keepsLaws : Answers (KeepsLaws s) (execRequestTaken p mosi s) := by
  unfold execRequestTaken
  split
  · exact csnRise_keepsLaws fun t => t.keepsLaws_takeRequest p _
  · exact .next (.refl s)

theorem execFrameError_keepsLaws : Answers (KeepsLaws s) (execFrameError p mosi s) := by
  unfold execFrameError
  split
  · exact csnRise_keepsLaws fun t => t.keepsLaws_placeReply p _ _ _
  · exact .next (.refl s)

theorem execUnknown_keepsLaws : Answers (KeepsLaws s) (execUnknown p mosi s) := by
  unfold execUnknown
  split
  · exact csnRise_keepsLaws fun t => t.keepsLaws_placeReply p _ _ _
  · exact .next (.refl s)

theorem execCsnFall_keepsLaws : Answers (KeepsLaws s) (execCsnFall p s) := by
  unfold execCsnFall
  split
  · exact .next (.refl s)
  · exact .next (s.keepsLaws_modPort_of_notices p)

theorem execPending_keepsLaws : Answers (KeepsLaws s) (execPending p mosi s) := by
  unfold execPending
  split
  · exact .next (.refl s)
  · split
    · exact .next (s.keepsLaws_closeTransaction p _)
    · exact .next (.refl s)

theorem execNotReady_keepsLaws (before : Nat) : Answers (KeepsLaws s) (execNotReady p mosi before s) := by
  unfold execNotReady
  split
  · exact .next (.refl s)
  · split
    · exact .next (s.keepsLaws_closeTransaction p _)
    · exact .next (s.keepsLaws_closeTransaction p _)
    all_goals exact .next (.refl s)

theorem execReplyPlaced_keepsLaws : Answers (KeepsLaws s) (execReplyPlaced p s) := by
  unfold execReplyPlaced
  split
  · exact .next (.refl s)
  · split
    · exact .next (s.keepsLaws_deliverPosts.trans (State.keepsLaws_placeAnswer _))
    · exact .next (.refl s)

theorem execNoticePost_keepsLaws : Answers (KeepsLaws s) (execNoticePost p s) := by
  unfold execNoticePost
  split
  · exact .next (.refl s)
  · rename_i x _
    split
    · have taken : KeepsLaws s { s with transit := s.transit.eraseP fun x => x.1 == p } := .of_parts rfl
      exact .next (taken.trans (State.keepsLaws_store _ p x.2))
    · exact .next (.refl s)

/-- A finished seal programs its slot, whatever its end (R144, R157; log entries 11 and 31). -/
theorem execSealEnd_keepsLaws (result : SealResult) : Answers (KeepsLaws s) (execSealEnd result s) := by
  unfold execSealEnd
  split
  · exact .next (.refl s)
  · rename_i w _
    split
    · split
      · exact .next (.refl s)
      · rename_i contents hcontents
        have programs := KeepsMemory.setImageSlot (s := s) (i := w.slot)
          (x := { contents := contents, state := State.sealedState contents result })
          fun hwf => ⟨Memory.sealedContents_wf hwf hcontents, .of_endedSeal hwf hcontents⟩
        have sealed : KeepsLaws s { s.setImageSlot w.slot
            { contents := contents, state := State.sealedState contents result } with sealing := none } :=
          .of_memory programs rfl rfl rfl
        exact .next ((sealed.trans (State.keepsLaws_modPort_of_notices _ 0
          (f := fun c => { c with processing := none }))).trans (State.keepsLaws_placeReply _ 0 _ _ _))
    · exact .next (.refl s)

theorem execTick_keepsLaws (lines : SagLevels) (disturbed : List Disturbance) :
    Answers (KeepsLaws s) (execTick lines disturbed s) := by
  unfold execTick
  split
  · exact .next ((s.keepsLaws_tickAll _ _).trans (.foldl State.keepsLaws_disturb _ _))
  · exact .next (.refl s)

end

/-! ## Requests -/

namespace State

variable (s : State) (p : Port)

theorem keepsLaws_replyWith (x : Status) (l : List Byte) : KeepsLaws s (s.replyWith p x l) := .of_parts rfl

theorem keepsLaws_refuse (c : Command) (x : Status) : KeepsLaws s (s.refuse p c x) := .of_parts rfl

theorem keepsLaws_answerAtt (lease : Word) : KeepsLaws s (s.answerAtt p lease) := by
  unfold answerAtt
  split
  · exact s.keepsLaws_refuse p _ _
  · have session : KeepsLaws s
        (s.setSession p { state := .attached, leasePeriod := lease.toNat, lapseCause := none }) := .of_parts rfl
    have attached : KeepsLaws s (s.attach p lease) := session.trans (keepsLaws_modPort_of_notices _ p)
    exact attached.trans (keepsLaws_replyWith _ p _ _)

theorem keepsLaws_answerQpt : KeepsLaws s (s.answerQpt p) :=
  (s.keepsLaws_modPort_of_notices p (f := fun c => { c with missed := false })).trans (keepsLaws_replyWith _ p _ _)

/-- Steps 1 to 4 of R108: the port's own watch set is emptied, and its tokens leave every other one. -/
theorem keepsLaws_releaseHoldings : KeepsLaws s (s.releaseHoldings p) := by
  have unwatched : KeepsLaws s (s.setWatch p 0) :=
    s.keepsLaws_setWatch p fun n hn => absurd (hn.symm.trans (names_zero n)) Bool.false_ne_true.symm
  have records : (((s.setWatch p 0).recordsOf p).foldl removeRecord (s.setWatch p 0)).parts = (s.setWatch p 0).parts :=
    parts_foldl parts_removeRecord _ _
  unfold releaseHoldings
  dsimp only
  generalize List.foldl removeRecord (s.setWatch p 0) _ = t at records ⊢
  have grants : (t.freeGrants (t.grantsOf p)).parts = t.parts := parts_foldl parts_freeGrant _ t
  exact (unwatched.trans (.of_parts (grants.trans records))).trans (keepsLaws_freeTokens _ _)

theorem keepsLaws_lapseSession (cause : LapseCause) : KeepsLaws s (s.lapseSession p cause) := by
  have released := s.keepsLaws_releaseHoldings p
  unfold lapseSession
  dsimp only
  generalize s.releaseHoldings p = t at released ⊢
  have lapsed : KeepsLaws t (t.setSession p { t.session p with state := .lapsed, lapseCause := some cause }) :=
    .of_parts rfl
  have stopped := (released.trans lapsed).trans (keepsLaws_modPort_of_notices _ p (f := fun c => { c with lease := none }))
  exact stopped.trans (.of_parts (by simp))

/-- A detachment empties the port's notice queue (R111). -/
theorem keepsLaws_detachSession : KeepsLaws s (s.detachSession p) := by
  have released := s.keepsLaws_releaseHoldings p
  unfold detachSession
  dsimp only
  generalize s.releaseHoldings p = t at released ⊢
  have detached : KeepsLaws t (t.setSession p Session.initial) := .of_parts rfl
  have emptied := (released.trans detached).trans (keepsLaws_modPort _ p
    (f := fun c => { c with lease := none, notices := [], missed := false }) fun _ => Nat.zero_le _)
  exact emptied.trans (.of_parts (by simp))

theorem keepsLaws_answerClm (mask : Word) (mode watch : Byte) : KeepsLaws s (s.answerClm p mask mode watch) := by
  unfold answerClm
  split
  · exact s.keepsLaws_refuse p _ _
  · exact (s.keepsLaws_claimed p mask _ _).trans (keepsLaws_replyWith _ p _ _)

theorem keepsLaws_answerDrp (mask : Word) : KeepsLaws s (s.answerDrp p mask) := by
  unfold answerDrp
  split
  · exact s.keepsLaws_refuse p _ _
  · exact (s.keepsLaws_freeTokens (mask &&& (s.heldMask p ||| s.auditMask p))).trans (.of_parts (by simp))

theorem keepsLaws_answerCnt (mask : Word) : KeepsLaws s (s.answerCnt p mask) := by
  unfold answerCnt
  split
  · exact s.keepsLaws_refuse p _ _
  · have confirms : KeepsLaws s (s.confirmed p (mask &&& s.auditMask p)) := s.keepsLaws_confirmed p fun n hn => by
      rw [names_and, Bool.and_eq_true, names_auditMask] at hn
      exact hn.2
    exact confirms.trans (.of_parts (by rw [parts_replyWith, parts_closeIfDone, confirmed]))

theorem keepsLaws_answerUwt (mask : Word) : KeepsLaws s (s.answerUwt p mask) := by
  unfold answerUwt
  split
  · exact s.keepsLaws_refuse p _ _
  · have removes : KeepsLaws s (s.setWatch p (s.watch p &&& ~~~mask)) := s.keepsLaws_setWatch p fun n hn => by
      rw [names_and, Bool.and_eq_true] at hn
      exact hn.1
    exact removes.trans (keepsLaws_replyWith _ p _ _)

theorem keepsLaws_answerEvc (target : Byte) : KeepsLaws s (s.answerEvc p target) := by
  have refused (c : Command) (x : Status) := s.keepsLaws_refuse p c x
  have evicted (q : Port) : KeepsLaws s ((s.lapseSession q .evicted).replyWith p .ok []) :=
    (s.keepsLaws_lapseSession q .evicted).trans (keepsLaws_replyWith _ p _ _)
  unfold answerEvc
  dsimp only
  split
  · exact refused _ _
  · split
    · exact refused _ _
    · split
      · exact refused _ _
      · split
        · exact refused _ _
        · exact refused _ _
        · exact evicted _
        · exact evicted _

theorem keepsLaws_answerRsr : KeepsLaws s (s.answerRsr p) := by
  unfold answerRsr
  split
  · exact s.keepsLaws_refuse p _ _
  · exact s.keepsLaws_cutTransactions.trans (.of_parts rfl)

theorem keepsLaws_inStore (c : Command) {effect : State → State} (h : ∀ t, KeepsLaws t (effect t)) :
    KeepsLaws s (s.inStore p c effect) := by
  unfold inStore
  split
  · exact h s
  · exact s.keepsLaws_refuse p c _

/-! ## Requests that the laws do not see -/

theorem parts_queueRsv (tag pool : Byte) (n : PoolNo) (floor max wait : Word) :
    (s.queueRsv p tag pool n floor max wait).parts = s.parts := by
  unfold queueRsv
  split
  · rfl
  · split
    · rfl
    · unfold markIfFull
      split <;> simp

theorem parts_answerRsv (tag pool : Byte) (floor max wait : Word) :
    (s.answerRsv p tag pool floor max wait).parts = s.parts := by
  unfold answerRsv
  dsimp only
  split
  · rfl
  · split
    · rfl
    · split
      · rfl
      · unfold decideRsv
        dsimp only
        split
        · split
          · simp
          · split
            · rfl
            · exact s.parts_queueRsv p tag pool _ floor max wait
        · split
          · rfl
          · exact s.parts_queueRsv p tag pool _ floor max wait

theorem parts_answerAdj (handle units : Word) : (s.answerAdj p handle units).parts = s.parts := by
  unfold answerAdj
  dsimp only
  split
  · rfl
  · split
    · rfl
    · split
      · rfl
      · unfold adjustGrant
        split
        · rfl
        · split
          · simp
          · split
            · rfl
            · simp

theorem parts_freeAndServe (i : GrantNo) (g : Grant) {told : State → State} (ht : ∀ t, (told t).parts = t.parts) :
    (s.freeAndServe i g told).parts = s.parts := by
  simp [freeAndServe, ht]

theorem parts_answerRel (handle : Word) : (s.answerRel p handle).parts = s.parts := by
  unfold answerRel
  split
  · rfl
  · rw [parts_replyWith]; exact s.parts_freeAndServe _ _ fun _ => rfl

theorem parts_endRecord (w : WaitNo) (r : WaitRecord) {told : State → State} (ht : ∀ t, (told t).parts = t.parts) :
    (s.endRecord w r told).parts = s.parts := by
  unfold endRecord
  dsimp only
  split <;> simp [ht]

theorem parts_answerCan (ticket : Word) : (s.answerCan p ticket).parts = s.parts := by
  unfold answerCan
  split
  · rfl
  · rw [parts_replyWith]; exact s.parts_endRecord _ _ fun _ => rfl

theorem parts_answerCnf (handle : Word) : (s.answerCnf p handle).parts = s.parts := by
  unfold answerCnf
  dsimp only
  split
  · rfl
  · split
    · rfl
    · simp

theorem parts_answerQgr (handle : Word) : (s.answerQgr p handle).parts = s.parts := by
  unfold answerQgr
  split <;> rfl

theorem parts_answerQpl (pool : Byte) : (s.answerQpl p pool).parts = s.parts := by
  unfold answerQpl
  split <;> rfl

theorem parts_changeCapacity (n : PoolNo) (nominal derated : Nat) :
    (s.changeCapacity n nominal derated).parts = s.parts := by
  unfold changeCapacity
  dsimp only
  split
  · simp
  · split
    · split <;> simp
    · rfl

theorem parts_answerScp (pool : Byte) (nominal derated : Word) : (s.answerScp p pool nominal derated).parts = s.parts := by
  unfold answerScp
  dsimp only
  split
  · rfl
  · split
    · rfl
    · split
      · rfl
      · rw [parts_replyWith]; exact s.parts_changeCapacity _ _ _

theorem parts_answerRvk (handle : Word) : (s.answerRvk p handle).parts = s.parts := by
  unfold answerRvk
  dsimp only
  split
  · rfl
  · split
    · rfl
    · rw [parts_replyWith]
      refine s.parts_freeAndServe _ _ fun t => ?_
      unfold tellRevoked
      split <;> simp

theorem parts_answerSrd (slot block : Byte) : (s.answerSrd p slot block).parts = s.parts := by
  unfold answerSrd
  split
  · rfl
  · split <;> rfl

theorem parts_answerChk : (s.answerChk p).parts = s.parts := by
  unfold answerChk
  split <;> rfl

theorem parts_answerSel : (s.answerSel p).parts = s.parts := by
  unfold answerSel
  split
  · rfl
  · split <;> rfl

/-! ## Events -/

variable {s p}

theorem keepsLaws_takeLapse {t : State} (h : s.takeLapse p = some t) : KeepsLaws s t := by
  have taken (l : List HandedOn) := s.keepsLaws_modPort_of_notices p (f := fun c => { c with handedOn := l })
  unfold takeLapse at h
  split at h
  · dsimp only at h
    split at h
    · cases h; exact (taken _).trans (keepsLaws_lapseSession _ p _)
    · cases h; exact taken _
  · cases h
  · cases h

theorem parts_takeExpiry {ticket : Nat} {t : State} (h : s.takeExpiry ticket = some t) : t.parts = s.parts := by
  unfold takeExpiry at h
  dsimp only at h
  split at h
  · split at h
    · cases h; rfl
    · split at h
      · cases h; exact parts_endRecord _ _ _ fun _ => rfl
      · cases h; rfl
  · cases h

theorem parts_takeSagEvent {e : SagEvent} {effect : State → State} (he : ∀ u, (effect u).parts = u.parts) {t : State}
    (h : s.takeSagEvent e effect = some t) : t.parts = s.parts := by
  unfold takeSagEvent at h
  split at h
  · cases h; exact he _
  · cases h

theorem parts_derate (g : SagGroup) (s : State) : (s.derate g).parts = s.parts := by
  have shed (t : State) (n : PoolNo) : (t.deratePool n).parts = t.parts := by simp [deratePool]
  rw [derate, parts_closeIfDone, parts_detachBare, parts_foldl shed]

theorem parts_restore (g : SagGroup) (s : State) : (s.restore g).parts = s.parts := by
  rw [restore, parts_servicePass, parts_foldl fun t n => t.parts_modPool n _]

theorem parts_reclaimGrant (s : State) (i : GrantNo) : (s.reclaimGrant i).parts = s.parts := by
  unfold reclaimGrant
  split
  · rfl
  · split <;> simp

theorem parts_endRecovery (s : State) (p : Port) : (s.endRecovery p).parts = s.parts := by
  unfold endRecovery
  split <;> rfl

/-- The end of the audit window frees the AUDIT tokens as one freeing (R73, R140). -/
theorem keepsLaws_reclaimAudit (s : State) : KeepsLaws s s.reclaimAudit := by
  have reclaimed := parts_foldl parts_reclaimGrant (s.ageList.filter s.isAudit) s
  unfold reclaimAudit
  dsimp only
  generalize List.foldl reclaimGrant s _ = t at reclaimed ⊢
  have freed := (KeepsLaws.of_parts reclaimed).trans (t.keepsLaws_freeTokens t.allAuditMask)
  refine freed.trans (.of_parts ?_)
  rw [parts_servicePass, parts_foldl parts_endRecovery]
  rfl

theorem keepsLaws_takeAuditEnd {t : State} (h : s.takeAuditEnd = some t) : KeepsLaws s t := by
  have taken : KeepsLaws s { s with auditEndMade := false } := .of_parts rfl
  unfold takeAuditEnd at h
  dsimp only at h
  split at h
  · cases h
    split
    · exact taken.trans (keepsLaws_reclaimAudit _)
    · exact taken
  · cases h

/-! ## Resets and starts -/

variable (s)

theorem keepsLaws_rstnFalls : KeepsLaws s s.rstnFalls := by
  have low : KeepsLaws s { s with rstn := .low } := .of_parts rfl
  unfold rstnFalls
  dsimp only
  split
  · exact low.trans ((keepsLaws_cutTransactions _).trans (.of_parts rfl))
  all_goals exact .of_parts rfl

theorem keepsLaws_rstnRises : KeepsLaws s s.rstnRises := by
  unfold rstnRises
  dsimp only
  split
  all_goals exact .of_parts rfl

theorem keepsLaws_takeReset (cut : SealCut) : KeepsLaws s (s.takeReset cut) :=
  ((s.keepsLaws_abortSeal cut).trans (keepsLaws_discardWork _)).trans (.of_parts rfl)

theorem keepsLaws_gainPower : KeepsLaws s s.gainPower := s.keepsLaws_discardWork.trans (.of_parts rfl)

theorem keepsLaws_losePower (cut : SealCut) : KeepsLaws s (s.losePower cut) :=
  ((s.keepsLaws_abortSeal cut).trans (keepsLaws_cutTransactions _)).trans (.of_parts rfl)

/-- A start with cold tables leaves nothing watched (R79). -/
theorem keepsLaws_coldTables (kind : StartKind) (x : Profile) : KeepsLaws s (s.coldTables kind x) := by
  refine s.keepsLaws_discardWork.trans (.of_watches (fun _ => .of_empty fun p => ?_) rfl rfl rfl)
  exact Vector.getElem_replicate _

/-- A HELD token that becomes AUDIT is neither FREE nor HELD (R80). -/
theorem keepsLaws_tokensToAudit : KeepsLaws s s.tokensToAudit := by
  refine .of_watches (fun hs p n hn => ?_) rfl rfl rfl
  obtain ⟨hfree, _⟩ := hs p n hn
  have htoken : s.tokensToAudit.token n = match s.token n with
      | .held q => .audit q
      | .audit q => .audit q
      | .free => .free := tabulate_get _ n
  rw [htoken]
  cases h : s.token n with
  | free => exact absurd h hfree
  | held q => exact ⟨Token.noConfusion, Token.noConfusion⟩
  | audit q => exact ⟨Token.noConfusion, Token.noConfusion⟩

/-- A warm start with a good signature empties every watch set (R80, R134). -/
theorem keepsLaws_warmTables : KeepsLaws s s.warmTables := by
  have grants : KeepsLaws s.discardWork s.discardWork.grantsToAudit := .of_parts rfl
  have records : KeepsLaws s.discardWork.grantsToAudit.tokensToAudit
    s.discardWork.grantsToAudit.tokensToAudit.discardRecords := .of_parts rfl
  have tables := ((s.keepsLaws_discardWork.trans grants).trans (keepsLaws_tokensToAudit _)).trans records
  unfold warmTables
  dsimp only
  generalize s.discardWork.grantsToAudit.tokensToAudit.discardRecords = t at tables ⊢
  refine tables.trans (.of_watches (fun _ => .of_empty fun p => ?_) rfl rfl rfl)
  exact Vector.getElem_replicate _

theorem keepsLaws_completeWarmStart (disturbed : Bool) : KeepsLaws s (s.completeWarmStart disturbed) := by
  unfold completeWarmStart
  dsimp only
  split
  · exact s.keepsLaws_beginStart.trans (keepsLaws_warmTables _)
  · exact s.keepsLaws_beginStart.trans (keepsLaws_coldTables _ _ _)

theorem keepsLaws_completeColdStart (prog : Level) : KeepsLaws s (s.completeColdStart prog) := by
  have begun : KeepsLaws s { s.beginStart with commissioning := prog == Level.high } :=
    s.keepsLaws_beginStart.trans (.of_parts rfl)
  exact begun.trans (keepsLaws_coldTables _ _ _)

end State

/-! ## Every step -/

section
variable {s : State}

/-- A row that comes about in one phase alone. -/
theorem KeepsLaws.guarded {P : Prop} [Decidable P] {t : State} (h : KeepsLaws s t) :
    Answers (KeepsLaws s) (if P then .next t else .next s) := by
  split
  · exact .next h
  · exact .next (.refl s)

theorem coreRequest_keepsLaws {p : Port} {r : Request} {effect : State → State} (he : ∀ t, KeepsLaws t (effect t)) :
    Answers (KeepsLaws s) (coreRequest s p r effect) := by
  have taken := s.keepsLaws_ready.trans (State.keepsLaws_took _ p)
  rcases coreRequest_next s p r effect with hr | ⟨t, ⟨_, rfl⟩, hr | ⟨status, hr⟩⟩
  · rw [hr]; exact .next (.refl s)
  · rw [hr]; exact .next (taken.trans (he _))
  · rw [hr]; exact .next (taken.trans (State.keepsLaws_refuse _ p _ _))

theorem coreRequest_keepsParts {p : Port} {r : Request} {effect : State → State}
    (he : ∀ t, (effect t).parts = t.parts) : Answers (KeepsLaws s) (coreRequest s p r effect) :=
  coreRequest_keepsLaws fun t => .of_parts (he t)

theorem coreEvent_keepsLaws {event : State → Option State} (he : ∀ t u, event t = some u → KeepsLaws t u) :
    Answers (KeepsLaws s) (coreEvent s event) := by
  rcases coreEvent_next s event with hr | ⟨t, u, ⟨_, rfl⟩, hu, hr⟩
  · rw [hr]; exact .next (.refl s)
  · rw [hr]; exact .next (s.keepsLaws_ready.trans (he _ u hu))

/-- Every row of the table keeps the three laws. -/
theorem exec_keepsLaws (c : Instr) (s : State) : Answers (KeepsLaws s) (exec c s) := by
  cases c with
  | nop p mosi => exact execNop_keepsLaws s p mosi
  | rpt p mosi => exact execRpt_keepsLaws s p mosi
  | ntf p mosi => exact execNtf_keepsLaws s p mosi
  | fill p mosi => exact execFill_keepsLaws s p mosi
  | csnFall p => exact execCsnFall_keepsLaws s p
  | requestTaken p mosi => exact execRequestTaken_keepsLaws s p mosi
  | frameError p mosi => exact execFrameError_keepsLaws s p mosi
  | unknown p mosi => exact execUnknown_keepsLaws s p mosi
  | pending p mosi => exact execPending_keepsLaws s p mosi
  | notReady p mosi before => exact execNotReady_keepsLaws s p mosi before
  | replyPlaced p => exact execReplyPlaced_keepsLaws s p
  | att p tag lease => exact coreRequest_keepsLaws fun t => t.keepsLaws_answerAtt p lease
  | det p tag =>
    exact coreRequest_keepsLaws fun t => (t.keepsLaws_detachSession p).trans (State.keepsLaws_replyWith _ p _ _)
  | rsv p tag pool floor max wait => exact coreRequest_keepsParts fun t => t.parts_answerRsv p tag pool floor max wait
  | adj p tag handle units => exact coreRequest_keepsParts fun t => t.parts_answerAdj p handle units
  | rel p tag handle => exact coreRequest_keepsParts fun t => t.parts_answerRel p handle
  | can p tag ticket => exact coreRequest_keepsParts fun t => t.parts_answerCan p ticket
  | cnf p tag handle => exact coreRequest_keepsParts fun t => t.parts_answerCnf p handle
  | qgr p tag handle => exact coreRequest_keepsParts fun t => t.parts_answerQgr p handle
  | qpl p tag pool => exact coreRequest_keepsParts fun t => t.parts_answerQpl p pool
  | qpt p tag => exact coreRequest_keepsLaws fun t => t.keepsLaws_answerQpt p
  | qdv p tag => exact coreRequest_keepsLaws fun t => t.keepsLaws_replyWith p _ _
  | clm p tag mask mode watch => exact coreRequest_keepsLaws fun t => t.keepsLaws_answerClm p mask mode watch
  | drp p tag mask => exact coreRequest_keepsLaws fun t => t.keepsLaws_answerDrp p mask
  | cnt p tag mask => exact coreRequest_keepsLaws fun t => t.keepsLaws_answerCnt p mask
  | uwt p tag mask => exact coreRequest_keepsLaws fun t => t.keepsLaws_answerUwt p mask
  | scp p tag pool nominal derated => exact coreRequest_keepsParts fun t => t.parts_answerScp p pool nominal derated
  | rvk p tag handle => exact coreRequest_keepsParts fun t => t.parts_answerRvk p handle
  | evc p tag target => exact coreRequest_keepsLaws fun t => t.keepsLaws_answerEvc p target
  | rsr p tag => exact coreRequest_keepsLaws fun t => t.keepsLaws_answerRsr p
  | srd p tag slot block =>
    exact coreRequest_keepsLaws fun t => t.keepsLaws_inStore p _ fun u => .of_parts (u.parts_answerSrd p slot block)
  | stg p tag block data =>
    exact coreRequest_keepsLaws fun t => t.keepsLaws_inStore p _ fun u => u.keepsLaws_answerStg p block data
  | chk p tag => exact coreRequest_keepsLaws fun t => t.keepsLaws_inStore p _ fun u => .of_parts (u.parts_answerChk p)
  | sel p tag => exact coreRequest_keepsLaws fun t => t.keepsLaws_inStore p _ fun u => .of_parts (u.parts_answerSel p)
  | sealEnd result => exact execSealEnd_keepsLaws s result
  | noticePost p => exact execNoticePost_keepsLaws s p
  | tick lines disturbed => exact execTick_keepsLaws s lines disturbed
  | leaseExpiry p => exact dueStep_keepsLaws s _
  | lapse p => exact coreEvent_keepsLaws fun _ _ hu => State.keepsLaws_takeLapse hu
  | deadlineExpiry ticket => exact dueStep_keepsLaws s _
  | expiryEvent ticket => exact coreEvent_keepsLaws fun _ _ hu => .of_parts (State.parts_takeExpiry hu)
  | lineAsserted g => exact dueStep_keepsLaws s _
  | lineDeasserted g => exact dueStep_keepsLaws s _
  | qualifyTimerExpiry g => exact dueStep_keepsLaws s _
  | restoreTimerExpiry g => exact dueStep_keepsLaws s _
  | derateEvent g =>
    exact coreEvent_keepsLaws fun _ _ hu => .of_parts (State.parts_takeSagEvent (State.parts_derate g) hu)
  | restoreEvent g =>
    exact coreEvent_keepsLaws fun _ _ hu => .of_parts (State.parts_takeSagEvent (State.parts_restore g) hu)
  | auditTimerExpiry => exact dueStep_keepsLaws s _
  | auditEnd => exact coreEvent_keepsLaws fun _ _ hu => State.keepsLaws_takeAuditEnd hu
  | rstnLow =>
    show Answers _ (execRstnLow s)
    unfold execRstnLow
    split
    · exact .next (.refl s)
    · exact .next s.keepsLaws_rstnFalls
  | warmReset cut => exact (s.keepsLaws_takeReset cut).guarded
  | rstnHigh => exact .next s.keepsLaws_rstnRises
  | warmStart disturbed => exact (s.keepsLaws_completeWarmStart disturbed).guarded
  | powerOn => exact s.keepsLaws_gainPower.guarded
  | coldStart prog => exact (s.keepsLaws_completeColdStart prog).guarded
  | powerInterruption cut =>
    show Answers _ (execPowerInterruption cut s)
    unfold execPowerInterruption
    split
    · exact .next (.refl s)
    · exact .next (s.keepsLaws_losePower cut)

theorem step_keepsLaws (s : State) : Answers (KeepsLaws s) (step s) := by
  unfold step
  split
  · exact .next (.refl s)
  · rename_i c rest _
    have popped : KeepsLaws s { s with pending := rest } := .of_parts rfl
    exact (exec_keepsLaws c _).mono fun _ h => popped.trans h

end

/-- Settles O55: each thing that a step is made of keeps the three laws; what touches none of the memories, the notice
queues, the tokens and the watch sets keeps them at once (`KeepsLaws.of_parts`). -/
theorem everyStepKeepsStoreNoticeAndWatchLaws : Obligations.EveryStepKeepsStoreNoticeAndWatchLaws := by
  intro s t hstep
  obtain ⟨hmemory, hnotice, hwatch⟩ := step_keepsLaws s t hstep
  exact ⟨hmemory, hnotice, hwatch⟩

end Sys2Proof.Machine
end

section
/-! Proofs, part 31: the sag lines: what moves a line, and what a tick's sample of it does (R82 to R85, R95, R96). -/

namespace Sys2Proof.Machine

/-! ## The table of the line state machine -/

namespace State

variable {s : State} {g : SagGroup}

/-- The line of a group moved to a state with its timer set, the events sent after those made before (R83, R85). -/
def moveLine (s : State) (g : SagGroup) (state : LineState) (timer : Option Nat) (events : List SagEvent) : State :=
  { (s.setLine g { s.line g with state := state, timer := timer }) with sagEvents := s.sagEvents ++ events }

/-- A move that sends no event sets the line alone. -/
theorem moveLine_quiet (state : LineState) (timer : Option Nat) :
    s.moveLine g state timer [] = s.setLine g { s.line g with state := state, timer := timer } := by
  rw [moveLine, List.append_nil]
  cases g <;> rfl

theorem lineAsserts_clear (h : (s.line g).state = .clear) :
    s.lineAsserts g = s.moveLine g .qualifying (some (s.sagTimes g).qualify) [] := by
  rw [lineAsserts, h, moveLine_quiet]

theorem lineAsserts_restoring (h : (s.line g).state = .restoring) :
    s.lineAsserts g = s.moveLine g .asserted none [] := by
  rw [lineAsserts, h, moveLine_quiet]

theorem lineDeasserts_qualifying (h : (s.line g).state = .qualifying) :
    s.lineDeasserts g = s.moveLine g .clear none [] := by
  rw [lineDeasserts, h, moveLine_quiet]

theorem lineDeasserts_asserted (h : (s.line g).state = .asserted) :
    s.lineDeasserts g = s.moveLine g .restoring (some (s.sagTimes g).restore) [] := by
  rw [lineDeasserts, h, moveLine_quiet]

theorem qualifyRunsOut_qualifying (h : (s.line g).state = .qualifying) :
    s.qualifyRunsOut g = s.moveLine g .asserted none [.derate g] := by
  rw [qualifyRunsOut, h]
  simp only [setLine_sagEvents]
  rfl

theorem restoreRunsOut_restoring (h : (s.line g).state = .restoring) :
    s.restoreRunsOut g = s.moveLine g .clear none [.restore g] := by
  rw [restoreRunsOut, h]
  simp only [setLine_sagEvents]
  rfl

end State

/-- Settles O45: each row is a due step, and each due step is one move of the table. -/
theorem linesMoveAsTheTableGives : Obligations.LinesMoveAsTheTableGives := by
  intro s g hphase
  have row {d : Due} (hd : d ∈ s.due) {state : LineState} {timer : Option Nat} {events : List SagEvent}
      (hmove : s.runDue d = s.moveLine g state timer events) :
      dueStep s d = .next { s.moveLine g state timer events with due := s.due.erase d } := by
    rw [dueStep_due hphase hd, hmove]
  exact ⟨fun hd => ⟨fun h => row hd (State.lineAsserts_clear h), fun h => row hd (State.lineAsserts_restoring h)⟩,
    fun hd => ⟨fun h => row hd (State.lineDeasserts_qualifying h), fun h => row hd (State.lineDeasserts_asserted h)⟩,
    fun hd h => row hd (State.qualifyRunsOut_qualifying h), fun hd h => row hd (State.restoreRunsOut_restoring h)⟩

/-! ## The first sample of a line -/

namespace State

variable {s : State} {g : SagGroup} {level a b : Level}

/-- A group has a DERATED pool (R96). -/
def GroupIsDerated (s : State) (g : SagGroup) : Prop :=
  ∃ n, (s.pool n).defined = true ∧ (s.pool n).group = some g ∧ (s.pool n).derateState = .derated

theorem groupDerated_iff : s.groupDerated g = true ↔ s.GroupIsDerated g := by
  simp [groupDerated, GroupIsDerated, and_assoc]

/-- The first sample of an asserted line whose group has a DERATED pool (R96). -/
theorem firstSample_derated_high (h : s.GroupIsDerated g) (hlevel : level = .high) :
    s.firstSample g level = { state := .asserted, seen := level, sampled := true, timer := none } := by
  subst hlevel; simp only [firstSample, groupDerated_iff.2 h]

/-- The first sample of a deasserted line whose group has a DERATED pool (R96). -/
theorem firstSample_derated_low (h : s.GroupIsDerated g) (hlevel : level = .low) : s.firstSample g level =
    { state := .restoring, seen := level, sampled := true, timer := some (s.sagTimes g).restore } := by
  subst hlevel; simp only [firstSample, groupDerated_iff.2 h]

/-- The first sample of an asserted line whose group has no DERATED pool (R96). -/
theorem firstSample_normal_high (h : ¬ s.GroupIsDerated g) (hlevel : level = .high) : s.firstSample g level =
    { state := .qualifying, seen := level, sampled := true, timer := some (s.sagTimes g).qualify } := by
  subst hlevel; simp only [firstSample, Bool.eq_false_iff.2 (mt groupDerated_iff.1 h)]

/-- The first sample of a deasserted line whose group has no DERATED pool (R96). -/
theorem firstSample_normal_low (h : ¬ s.GroupIsDerated g) (hlevel : level = .low) : s.firstSample g level =
    { state := .clear, seen := level, sampled := true, timer := none } := by
  subst hlevel; simp only [firstSample, Bool.eq_false_iff.2 (mt groupDerated_iff.1 h)]

/-- A line not yet sampled takes the state of R96. -/
theorem lineSampled_first (h : (s.line g).sampled = false) : s.lineSampled g level = s.firstSample g level := if_pos h

/-- A level that differs is seen, the timer kept (R82). -/
theorem lineSampled_change (h : (s.line g).sampled = true) (hseen : (s.line g).seen ≠ level) :
    s.lineSampled g level = { s.line g with seen := level } := by
  rw [lineSampled, h, if_neg Bool.noConfusion, if_pos hseen]

/-- An equal level lowers a running timer (R82). -/
theorem lineSampled_equal (h : (s.line g).sampled = true) (hseen : (s.line g).seen = level) :
    s.lineSampled g level = { s.line g with timer := (s.line g).timer.map (· - 1) } := by
  rw [lineSampled, h, if_neg Bool.noConfusion, if_neg (not_not_intro hseen)]

end State

/-! ## What a sample makes due -/

section
variable {x : SagLine} {g : SagGroup} {level : Level} {d : Due}

/-- What a sample makes due of a line: after the first sample, the change of level, or else the expiry of a timer at 1. -/
theorem SagLine.mem_expired : d ∈ x.expired g level ↔ x.sampled = true ∧
    ((x.seen ≠ level ∧ d = State.lineChange g level) ∨
      (x.seen = level ∧ x.timer = some 1 ∧ d = State.timerExpiry g x.state)) := by
  unfold expired
  cases x.sampled with
  | false => simp
  | true => by_cases hseen : x.seen = level <;> simp [hseen]

theorem lineChange_eq (g : SagGroup) (level : Level) :
    State.lineChange g level = if level = .high then .lineAsserted g else .lineDeasserted g := by
  cases level <;> rfl

theorem timerExpiry_eq (g : SagGroup) (state : LineState) :
    State.timerExpiry g state = if state = .restoring then .restore g else .qualify g := by
  cases state <;> rfl

/-- A line change to asserted is due when the line was seen deasserted and is sampled asserted (R82). -/
theorem SagLine.asserted_mem_expired :
    .lineAsserted g ∈ x.expired g level ↔ x.sampled = true ∧ x.seen = .low ∧ level = .high := by
  have noExpiry : Due.lineAsserted g ≠ State.timerExpiry g x.state := by cases x.state <;> exact Due.noConfusion
  rw [mem_expired]
  cases level with
  | high => cases x.seen <;> simp [State.lineChange, noExpiry]
  | low => simp [State.lineChange, noExpiry]

/-- A line change to deasserted is due when the line was seen asserted and is sampled deasserted (R82). -/
theorem SagLine.deasserted_mem_expired :
    .lineDeasserted g ∈ x.expired g level ↔ x.sampled = true ∧ x.seen = .high ∧ level = .low := by
  have noExpiry : Due.lineDeasserted g ≠ State.timerExpiry g x.state := by cases x.state <;> exact Due.noConfusion
  rw [mem_expired]
  cases level with
  | high => simp [State.lineChange, noExpiry]
  | low => cases x.seen <;> simp [State.lineChange, noExpiry]

/-- The restore timer's expiry is due at an equal level when the timer stands at 1 in RESTORING (R82, R83). -/
theorem SagLine.restore_mem_expired : .restore g ∈ x.expired g level ↔
    x.sampled = true ∧ x.seen = level ∧ x.timer = some 1 ∧ x.state = .restoring := by
  have noChange : Due.restore g ≠ State.lineChange g level := by cases level <;> exact Due.noConfusion
  rw [mem_expired, timerExpiry_eq]
  simp [noChange]

/-- The qualify timer's expiry is due at an equal level when the timer stands at 1 outside RESTORING (R82, R83). -/
theorem SagLine.qualify_mem_expired : .qualify g ∈ x.expired g level ↔
    x.sampled = true ∧ x.seen = level ∧ x.timer = some 1 ∧ x.state ≠ .restoring := by
  have noChange : Due.qualify g ≠ State.lineChange g level := by cases level <;> exact Due.noConfusion
  rw [mem_expired, timerExpiry_eq]
  simp [noChange]

/-- The level at which a tick samples the line of a group (R82). -/
def levelOf (a b : Level) : SagGroup → Level
  | .a => a
  | .b => b

/-- Of a configured part, a step about a line is due after a tick exactly when the line's sample makes it due. -/
theorem State.line_mem_tickExpired {s : State} {a b : Level} (hs : s.unconfigured = false) (hd : d.line = some g) :
    d ∈ s.tickExpired a b ↔ d ∈ (s.line g).expired g (levelOf a b g) := by
  have lines : s.linesExpired a b = s.lineA.expired .a a ++ s.lineB.expired .b b := by
    rw [linesExpired, hs, if_neg Bool.false_ne_true]
  have own {y : SagLine} {k : SagGroup} {l : Level} (h : d ∈ y.expired k l) : k = g :=
    Option.some.inj ((SagLine.line_of_mem_expired h).symm.trans hd)
  rw [mem_tickExpired, lines, List.mem_append]
  constructor
  · rintro (⟨p, _, rfl⟩ | ⟨i, r, _, _, rfl⟩ | (hA | hB) | ⟨_, rfl⟩)
    · cases hd
    · cases hd
    · cases own hA; exact hA
    · cases own hB; exact hB
    · cases hd
  · intro h
    cases g with
    | a => exact .inr (.inr (.inl (.inl h)))
    | b => exact .inr (.inr (.inl (.inr h)))

end

/-- Settles O43: the tick in one equation, the line it leaves by the three cases of a sample, and what that sample makes
due. -/
theorem tickSamplesEachLine : Obligations.TickSamplesEachLine := by
  intro s sagA sagB disturbed hphase hversion
  have hexec : exec (.tick ⟨sagA, sagB⟩ disturbed) s =
      .next (disturbed.foldl State.disturb (s.tickAll sagA sagB)) := if_pos hphase
  obtain ⟨hframe, _⟩ := State.disturbed_frame (s.tickAll sagA sagB) disturbed
  generalize disturbed.foldl State.disturb (s.tickAll sagA sagB) = u at hexec hframe
  obtain ⟨slots, hu⟩ : ∃ slots, u = { s.tickAll sagA sagB with slots := slots } := ⟨_, hframe⟩
  rw [State.tickAll_eq] at hu
  have hprofile : s.settle.profile = s.profile := by rw [State.settle_frame]
  have hconfigured : s.settle.unconfigured = false := decide_eq_false (hprofile ▸ hversion)
  refine ⟨u, hexec, fun g => ?_⟩
  intro level before isDerated
  have hline : u.line g = s.settle.lineSampled g level := by
    rw [hu]
    cases g <;> exact if_neg (Bool.eq_false_iff.1 hconfigured)
  have hdue {d : Due} (hd : d.line = some g) : d ∈ u.due ↔ d ∈ before.expired g level := by
    subst hu
    exact State.line_mem_tickExpired hconfigured hd
  refine ⟨fun hfirst => ?_, fun hsampled hseen => ⟨?_, ?_⟩, fun hsampled hseen => ⟨?_, fun htimer => ?_⟩,
    (hdue rfl).trans SagLine.asserted_mem_expired, (hdue rfl).trans SagLine.deasserted_mem_expired,
    (hdue rfl).trans SagLine.restore_mem_expired, (hdue rfl).trans SagLine.qualify_mem_expired⟩
  · rw [hline, State.lineSampled_first hfirst]
    exact ⟨State.firstSample_derated_high, State.firstSample_derated_low, State.firstSample_normal_high,
      State.firstSample_normal_low⟩
  · rw [hline, State.lineSampled_change hsampled hseen]
  · rw [← lineChange_eq, hdue (line_lineChange g level)]
    exact SagLine.mem_expired.2 ⟨hsampled, .inl ⟨hseen, rfl⟩⟩
  · rw [hline, State.lineSampled_equal hsampled hseen]
  · rw [← timerExpiry_eq, hdue (line_timerExpiry g before.state)]
    exact SagLine.mem_expired.2 ⟨hsampled, .inr ⟨hseen, htimer, rfl⟩⟩

end Sys2Proof.Machine
end

section
/-! Proofs, part 32: the pools of a group change their derate state (R86, R92), and a restore event. -/

namespace Sys2Proof.Machine

/-! ## A list of pools changes its derate state -/

namespace State

variable {s t : State} {x : DerateState} {g : SagGroup}

/-- A pool's derate state is set (R86, R92). -/
def setDerate (x : DerateState) (s : State) (n : PoolNo) : State := s.modPool n fun q => { q with derateState := x }

/-- Setting the derate state of a list of pools moves nothing else. -/
theorem foldl_setDerate (l : List PoolNo) (s : State) :
    (∀ n, (l.foldl (setDerate x) s).pool n =
      { s.pool n with derateState := if n ∈ l then x else (s.pool n).derateState }) ∧
    l.foldl (setDerate x) s = { s with pools := (l.foldl (setDerate x) s).pools } := by
  induction l generalizing s with
  | nil => exact ⟨fun n => by simp, rfl⟩
  | cons m rest ih =>
    obtain ⟨hpool, hframe⟩ := ih (s.setDerate x m)
    refine ⟨fun n => ?_, hframe⟩
    rw [List.foldl_cons, hpool n, setDerate, pool_modPool]
    by_cases hn : n = m
    · subst hn; simp
    · simp [hn]

/-- Whether a pool is a defined pool of a group. -/
theorem inGroup_iff {n : PoolNo} : s.inGroup g n = true ↔ (s.pool n).defined = true ∧ (s.pool n).group = some g := by
  simp [inGroup]

theorem mem_deratedPools {n : PoolNo} : n ∈ s.deratedPools g ↔
    ((s.pool n).defined = true ∧ (s.pool n).group = some g) ∧ (s.pool n).derateState = .derated := by
  simp [deratedPools, inGroup_iff]

end State

/-- The core takes an event that is the first of its line (R85). -/
theorem coreEvent_firstOfLine {s t : State} {e : SagEvent} (hfree : Free s t)
    (hfirst : t.sagEvents.find? (fun f => State.eventGroup f == State.eventGroup e) = some e) (effect : State → State) :
    coreEvent s (fun u => u.takeSagEvent e effect) = .next (effect { t with sagEvents := t.sagEvents.erase e }) :=
  coreEvent_free hfree _ (if_pos hfirst)

/-- Settles O47: the DERATED pools of the group become NORMAL, which the others are, and the pass is over their families. -/
theorem restoreReturnsGroupToNominal : Obligations.RestoreReturnsGroupToNominal := by
  intro s t g hfree hfirst
  have hexec : exec (.restoreEvent g) s =
      .next (({ t with sagEvents := t.sagEvents.erase (.restore g) } : State).restore g) :=
    coreEvent_firstOfLine (e := .restore g) hfree hfirst fun u => u.restore g
  generalize hw : ({ t with sagEvents := t.sagEvents.erase (.restore g) } : State) = w at hexec
  have hpoolW (n : PoolNo) : w.pool n = t.pool n := by rw [← hw]; rfl
  obtain ⟨hpool, hframe⟩ := State.foldl_setDerate (x := .normal) (w.deratedPools g) w
  refine ⟨_, _, (w.deratedPools g).map w.rootOf, hexec, rfl, fun n => ?_, ?_, fun n => ?_,
    State.onlyServes_servicePass _ _⟩
  · simp only [List.mem_map, State.mem_deratedPools, State.rootOf, hpoolW, and_assoc]
  · subst hw; exact hframe
  · have hstate : (if n ∈ w.deratedPools g then .normal else (t.pool n).derateState) =
        if (t.pool n).defined ∧ (t.pool n).group = some g then .normal else (t.pool n).derateState := by
      simp only [State.mem_deratedPools, hpoolW]
      cases (t.pool n).derateState <;> simp
    exact (hpool n).trans (by rw [hpoolW, hstate])

end Sys2Proof.Machine
end

section
/-! Proofs, part 33: the candidates of a shed in their ranking (R87, R88). -/

namespace Sys2Proof.Machine.State

variable {s : State} {n : PoolNo} {i j : GrantNo}

/-- Whether grant slot `i` ranks before slot `j` in a shed: the lower priority first, and of one priority the newer grant
(R88). -/
def RanksBefore (s : State) (i j : GrantNo) : Prop :=
  ∀ g ∈ s.grant? i, ∀ h ∈ s.grant? j,
    (s.portProfile h.port).priority < (s.portProfile g.port).priority ∨
      ((s.portProfile h.port).priority = (s.portProfile g.port).priority ∧ s.ageList.idxOf j < s.ageList.idxOf i)

/-- A live grant does not rank before itself. -/
theorem RanksBefore.ne (h : s.RanksBefore i j) (hi : (s.grant? i).isSome) : i ≠ j := by
  rintro rfl
  obtain ⟨g, hg⟩ := Option.isSome_iff_exists.1 hi
  rcases h g hg g hg with hlt | ⟨_, hlt⟩
  · exact lt_irrefl _ hlt
  · exact lt_irrefl _ hlt

/-- In the age list from its newest end, later entries are older (R26). -/
theorem pairwise_reverse_ageList (ha : AgeLaw s) :
    s.ageList.reverse.Pairwise fun i j => s.ageList.idxOf j < s.ageList.idxOf i := by
  obtain ⟨hnodup, _⟩ := ha
  refine List.pairwise_reverse.2 (List.pairwise_iff_getElem.2 fun a b hla hlb hlt => ?_)
  rwa [hnodup.idxOf_getElem, hnodup.idxOf_getElem]

/-- Whether a slot holds a grant of a port of priority `k`: the class of candidates a ranking takes together (R88). -/
def hasPriority (s : State) (k : Fin 4) (i : GrantNo) : Bool :=
  match s.grant? i with
  | some g => (s.portProfile g.port).priority == k
  | none => false

theorem priority_of_hasPriority {k : Fin 4} {g : Grant} (hg : g ∈ s.grant? i) (hk : s.hasPriority k i = true) :
    (s.portProfile g.port).priority = k := by
  rw [hasPriority, Option.mem_def.1 hg] at hk
  exact beq_iff_eq.1 hk

/-- A shed ranks its candidates by R88. -/
theorem pairwise_shedRanking (ha : AgeLaw s) (n : PoolNo) : (s.shedRanking n).Pairwise s.RanksBefore := by
  unfold shedRanking
  refine List.pairwise_flatMap.2 ⟨fun k _ => ?_, ?_⟩
  · refine ((((pairwise_reverse_ageList ha).filter _).filter _).imp_of_mem ?_)
    intro i j hi hj hage g hg h hh
    have hgk := priority_of_hasPriority (k := k) hg (List.mem_filter.1 hi).2
    have hhk := priority_of_hasPriority (k := k) hh (List.mem_filter.1 hj).2
    exact .inr ⟨hhk.trans hgk.symm, hage⟩
  · have descending : ([3, 2, 1, 0] : List (Fin 4)).Pairwise fun k m => m < k := by decide
    refine descending.imp fun {k m} hlt i hi j hj g hg h hh => ?_
    have hgk := priority_of_hasPriority (k := k) hg (List.mem_filter.1 hi).2
    have hhk := priority_of_hasPriority (k := m) hh (List.mem_filter.1 hj).2
    exact .inl (by rwa [hgk, hhk])

theorem isSome_of_mem_shedRanking (h : i ∈ s.shedRanking n) : (s.grant? i).isSome := by
  obtain ⟨_, g, hg, _⟩ := mem_shedRanking.1 h
  rw [Option.mem_def.1 hg]; rfl

/-- Each candidate stands in the ranking once. -/
theorem nodup_shedRanking (ha : AgeLaw s) (n : PoolNo) : (s.shedRanking n).Nodup :=
  (pairwise_shedRanking ha n).imp_of_mem fun hi _ h => h.ne (isSome_of_mem_shedRanking hi)

/-- The candidates of a shed and their order are those of R87 and R88. -/
theorem ranksCandidates_shedRanking (ha : AgeLaw s) (n : PoolNo) : RanksCandidates s n (s.shedRanking n) := by
  refine ⟨fun i => ?_, pairwise_shedRanking ha n⟩
  simp only [mem_shedRanking, chargesPool_iff, eq_comm (a := n)]
  refine ⟨fun h => h.2, fun h => ⟨(ha.2 i).2 ?_, h⟩⟩
  obtain ⟨g, hg, _⟩ := h
  rw [Option.mem_def.1 hg]; rfl

end Sys2Proof.Machine.State
end

section
/-! Proofs, part 34: the two phases of a shed, candidate by candidate (R89, R90). -/

namespace Sys2Proof.Machine

/-! ## Amounts taken in rank order -/

/-- What the candidate at place `k` gives of an excess, when each gives in order as much as it has of `amounts` (R89). -/
def takenAt (amounts : List Nat) (excess k : Nat) : Nat := min (amounts[k]?.getD 0) (excess - (amounts.take k).sum)

/-- Whether some of an excess is left at place `k`, when each before it gives all it has of `amounts` (R90). -/
def excessAt (amounts : List Nat) (excess k : Nat) : Bool := (amounts.take k).sum < excess

section
variable (m e k : Nat) (amounts : List Nat)

theorem takenAt_zero : takenAt (m :: amounts) e 0 = min m e := by simp [takenAt]

theorem takenAt_succ : takenAt (m :: amounts) e (k + 1) = takenAt amounts (e - m) k := by
  simp [takenAt, Nat.sub_sub]

theorem excessAt_zero : excessAt (m :: amounts) e 0 = decide (0 < e) := rfl

theorem excessAt_succ : excessAt (m :: amounts) e (k + 1) = excessAt amounts (e - m) k := by
  simp only [excessAt, List.take_succ_cons, List.sum_cons]
  exact decide_eq_decide.2 (by omega)

end

/-- While the excess is more than all amounts, each is taken whole. -/
theorem takenAt_of_sum_lt {amounts : List Nat} {e k m : Nat} (h : amounts.sum < e) (hk : amounts[k]? = some m) :
    takenAt amounts e k = m := by
  have split : (amounts.take k).sum + (amounts.drop k).sum = amounts.sum := by
    rw [← List.sum_append, List.take_append_drop]
  obtain ⟨hlt, hget⟩ := List.getElem?_eq_some_iff.1 hk
  rw [List.drop_eq_getElem_cons hlt, hget, List.sum_cons] at split
  rw [takenAt, hk, Option.getD_some]
  omega

/-- A ranked list's first candidate apart, the places of the others shifted by one. -/
theorem filterMap_zipIdx_cons {α β : Type} (f : α × Nat → Option β) (a : α) (l : List α) :
    (a :: l).zipIdx.filterMap f = (f (a, 0)).toList ++ l.zipIdx.filterMap fun x => f (x.1, x.2 + 1) := by
  rw [List.zipIdx_cons, List.filterMap_cons, List.zipIdx_succ, List.filterMap_map]
  cases f (a, 0) <;> rfl

/-- A ranked list may be looked at by any function that agrees at each candidate and its place. -/
theorem filterMap_zipIdx_congr {α β : Type} {f h : α × Nat → Option β} {l : List α}
    (hf : ∀ k a, l[k]? = some a → f (a, k) = h (a, k)) : l.zipIdx.filterMap f = l.zipIdx.filterMap h :=
  List.filterMap_congr fun x hx => hf x.2 x.1 (List.mem_zipIdx_iff_getElem?.1 hx)

/-! ## One candidate -/

/-- A grant slot with `k` units trimmed from its grant (R89). -/
def GrantSlot.trimmed (x : GrantSlot) (k : Nat) : GrantSlot :=
  { x with grant := x.grant.map fun g => { g with units := g.units - k } }

/-- A grant slot whose grant is freed; a FREE slot stays (R32). -/
def GrantSlot.revoked (x : GrantSlot) : GrantSlot := if x.grant.isSome then x.freed else x

namespace State

/-- The notice of a trim of `k` units of the grant of slot `i`, if it takes any (R89). -/
def trimNotice (s : State) (i : GrantNo) (k : Nat) : Option (Port × Notice) :=
  (s.grant? i).bind fun g => if k = 0 then none else some (g.port, .trimmed (s.handleOf i) (g.units - k))

/-- The notice of a revocation of the grant of slot `i` for shedding (R90). -/
def shedNotice (s : State) (i : GrantNo) : Option (Port × Notice) :=
  (s.grant? i).map fun g => (g.port, .revoked (s.handleOf i) .shed)

/-- The units of the grant of a slot. -/
def unitsOf (s : State) (i : GrantNo) : Nat := ((s.grant? i).map Grant.units).getD 0

/-- The trim phase at one candidate (R89). -/
def trimOne (s : State) (excess : Nat) (i : GrantNo) : State :=
  match s.grant? i with
  | none => s
  | some g =>
    let take := min (g.units - g.floor) excess
    if take = 0 then s
    else (s.shrinkGrant i g (g.units - take)).post g.port (.trimmed (s.handleOf i) (g.units - take))

/-- The revoke phase at one candidate (R90). -/
def revokeOne (s : State) (i : GrantNo) : State :=
  match s.grant? i with
  | none => s
  | some g => (s.freeGrant i).post g.port (.revoked (s.handleOf i) .shed)

variable {s : State} {i j : GrantNo} {g : Grant} {e : Nat}

theorem trimOne_idle (h : min (trimmable s i) e = 0) : s.trimOne e i = s := by
  unfold trimOne
  cases hg : s.grant? i with
  | none => rfl
  | some g => exact if_pos (by simpa [trimmable, hg] using h)

theorem trimPhase_zero (l : List GrantNo) : s.trimPhase 0 l = (s, 0) := by
  cases l with
  | nil => rfl
  | cons i rest => rw [trimPhase, if_pos rfl]

theorem trimPhase_cons (i : GrantNo) (rest : List GrantNo) :
    s.trimPhase e (i :: rest) = (s.trimOne e i).trimPhase (e - trimmable s i) rest := by
  by_cases he : e = 0
  · subst he
    rw [trimPhase_zero, trimOne_idle (Nat.min_zero _), Nat.zero_sub, trimPhase_zero]
  · rw [trimPhase, if_neg he]
    unfold trimOne trimmable
    cases hg : s.grant? i with
    | none => rfl
    | some g =>
      have left : e - min (g.units - g.floor) e = e - (g.units - g.floor) := by omega
      simp only [Option.map_some, Option.getD_some]
      split
      · rename_i h0
        rw [← left, h0, Nat.sub_zero]
      · rw [left]

theorem revokePhase_zero (l : List GrantNo) : s.revokePhase 0 l = s := by
  cases l with
  | nil => rfl
  | cons i rest => rw [revokePhase, if_pos rfl]

theorem revokePhase_cons (he : e ≠ 0) (i : GrantNo) (rest : List GrantNo) :
    s.revokePhase e (i :: rest) = (s.revokeOne i).revokePhase (e - s.unitsOf i) rest := by
  rw [revokePhase, if_neg he]
  unfold revokeOne unitsOf
  cases s.grant? i <;> rfl

/-- A trim takes the units above the floor, up to the excess, and nothing else of the slot; no other slot moves. -/
theorem grantSlot_trimOne : (s.trimOne e i).grantSlot j =
    if j = i then (s.grantSlot i).trimmed (min (trimmable s i) e) else s.grantSlot j := by
  by_cases h0 : min (trimmable s i) e = 0
  · have same : (s.grantSlot i).trimmed 0 = s.grantSlot i := by
      simp [GrantSlot.trimmed]
    rw [trimOne_idle h0, h0, same]
    split
    · rename_i hj; rw [hj]
    · rfl
  · unfold trimOne
    cases hg : s.grant? i with
    | none => simp [trimmable, hg] at h0
    | some g =>
      have hgrant : (s.grantSlot i).grant = some g := hg
      have htake : min (trimmable s i) e = min (g.units - g.floor) e := by simp [trimmable, hg]
      rw [htake] at h0 ⊢
      have hfloor : min g.floor (g.units - min (g.units - g.floor) e) = g.floor := by omega
      simp only [if_neg h0]
      show (s.shrinkGrant i g _).grantSlot j = _
      rw [shrinkGrant_frame, hfloor, GrantSlot.trimmed, hgrant]
      exact set_get _ _ _ _

/-- A trim that takes units tells the grant's port (R89). -/
theorem transit_trimOne : (s.trimOne e i).transit = s.transit ++ (s.trimNotice i (min (trimmable s i) e)).toList := by
  unfold trimOne trimNotice
  cases hg : s.grant? i with
  | none => simp
  | some g =>
    simp only [trimmable, hg, Option.map_some, Option.getD_some, Option.bind_some]
    split
    · simp
    · rw [post, shrinkGrant_frame]; rfl

theorem grantSlot_revokeOne : (s.revokeOne i).grantSlot j = if j = i then (s.grantSlot i).revoked else s.grantSlot j := by
  unfold revokeOne
  cases hg : s.grant? i with
  | none =>
    have hgrant : (s.grantSlot i).grant = none := hg
    simp only [GrantSlot.revoked, hgrant]
    split
    · rename_i hj; rw [hj]; rfl
    · rfl
  | some g =>
    have hgrant : (s.grantSlot i).grant = some g := hg
    have hlive : (s.grantSlot i).revoked = (s.grantSlot i).freed := by rw [GrantSlot.revoked, hgrant]; rfl
    rw [hlive]
    exact grantSlot_freeGrant hg

theorem transit_revokeOne : (s.revokeOne i).transit = s.transit ++ (s.shedNotice i).toList := by
  unfold revokeOne shedNotice
  cases hg : s.grant? i with
  | none => simp
  | some g =>
    show (s.freeGrant i).transit ++ _ = _
    rw [freeGrant_frame]; rfl

end State

end Sys2Proof.Machine
end

section
/-! Proofs, part 35: a shed in its closed form (R87 to R91): first trims, then revocations, each in rank order. -/

namespace Sys2Proof.Machine

/-- From `s` to `t` the candidates of `l` are trimmed in their order, as long as some of an excess is left (R89). -/
structure TrimsInOrder (s t : State) (l : List GrantNo) (excess : Nat) : Prop where
  others : ∀ i, i ∉ l → t.grantSlot i = s.grantSlot i
  slots : ∀ k i, l[k]? = some i →
    t.grantSlot i = (s.grantSlot i).trimmed (takenAt (l.map (trimmable s)) excess k)
  transit : t.transit = s.transit ++
    l.zipIdx.filterMap fun x => s.trimNotice x.1 (takenAt (l.map (trimmable s)) excess x.2)

/-- From `s` to `t` the candidates of `l` are revoked in their order, as long as some of an excess is left (R90). -/
structure RevokesInOrder (s t : State) (l : List GrantNo) (excess : Nat) : Prop where
  others : ∀ i, i ∉ l → t.grantSlot i = s.grantSlot i
  slots : ∀ k i, l[k]? = some i →
    t.grantSlot i = if excessAt (l.map s.unitsOf) excess k then (s.grantSlot i).revoked else s.grantSlot i
  transit : t.transit = s.transit ++
    l.zipIdx.filterMap fun x => if excessAt (l.map s.unitsOf) excess x.2 then s.shedNotice x.1 else none

/-! ## What the phases read of a slot -/

section
variable {s t : State} {i : GrantNo}

theorem trimmable_congr (h : t.grantSlot i = s.grantSlot i) : trimmable t i = trimmable s i := by
  simp only [trimmable, State.grant?, h]

theorem State.unitsOf_congr (h : t.grantSlot i = s.grantSlot i) : t.unitsOf i = s.unitsOf i := by
  simp only [unitsOf, grant?, h]

theorem State.trimNotice_congr (h : t.grantSlot i = s.grantSlot i) (k : Nat) : t.trimNotice i k = s.trimNotice i k := by
  simp only [trimNotice, grant?, handleOf, h]

theorem State.shedNotice_congr (h : t.grantSlot i = s.grantSlot i) : t.shedNotice i = s.shedNotice i := by
  simp only [shedNotice, grant?, handleOf, h]

/-- A trim changes neither the port nor the handle that a revocation tells. -/
theorem State.shedNotice_trimmed {k : Nat} (h : t.grantSlot i = (s.grantSlot i).trimmed k) :
    t.shedNotice i = s.shedNotice i := by
  simp only [shedNotice, grant?, handleOf, h, GrantSlot.trimmed, Option.map_map]
  rfl

/-- A grant trimmed by all it can give keeps what the trim phase cannot take. -/
theorem State.unitsOf_trimmed (h : t.grantSlot i = (s.grantSlot i).trimmed (trimmable s i)) :
    t.unitsOf i = untrimmable s i := by
  simp only [unitsOf, untrimmable, trimmable, grant?, h, GrantSlot.trimmed]
  cases (s.grantSlot i).grant <;> rfl

end

/-! ## The trim phase -/

namespace TrimsInOrder

variable {s t u : State} {i : GrantNo} {l : List GrantNo} {e : Nat}

theorem nil (s : State) (e : Nat) : TrimsInOrder s s [] e :=
  ⟨fun _ _ => rfl, fun _ _ h => (by simp at h), by simp⟩

/-- The first candidate is trimmed, then the others. -/
theorem cons (hi : i ∉ l) (h : TrimsInOrder (s.trimOne e i) u l (e - trimmable s i)) : TrimsInOrder s u (i :: l) e := by
  have hother {j : GrantNo} (hj : j ≠ i) : (s.trimOne e i).grantSlot j = s.grantSlot j := by
    rw [State.grantSlot_trimOne, if_neg hj]
  have hne {j : GrantNo} (hj : j ∈ l) : j ≠ i := ne_of_mem_of_not_mem hj hi
  have amounts : l.map (trimmable (s.trimOne e i)) = l.map (trimmable s) :=
    List.map_congr_left fun j hj => trimmable_congr (hother (hne hj))
  obtain ⟨others, slots, transit⟩ := h
  rw [amounts] at slots transit
  refine ⟨fun j hj => ?_, fun k j hk => ?_, ?_⟩
  · obtain ⟨hji, hjl⟩ := not_or.1 (mt List.mem_cons.2 hj)
    rw [others j hjl, hother hji]
  · cases k with
    | zero =>
      cases hk
      rw [others i hi, State.grantSlot_trimOne, if_pos rfl, List.map_cons, takenAt_zero]
    | succ k =>
      have hkl : l[k]? = some j := hk
      rw [slots k j hkl, hother (hne (List.mem_of_getElem? hkl)), List.map_cons, takenAt_succ]
  · rw [transit, State.transit_trimOne, filterMap_zipIdx_cons, List.append_assoc, List.map_cons, takenAt_zero]
    simp only [takenAt_succ]
    congr 2
    exact filterMap_zipIdx_congr fun k j hk => State.trimNotice_congr (hother (hne (List.mem_of_getElem? hk))) _

end TrimsInOrder

/-- The trim phase in its closed form: what it takes of each candidate, its notices, and the excess left (R89). -/
theorem State.trimPhase_inOrder {l : List GrantNo} (hl : l.Nodup) (s : State) (e : Nat) :
    TrimsInOrder s (s.trimPhase e l).1 l e ∧ (s.trimPhase e l).2 = e - (l.map (trimmable s)).sum := by
  induction l generalizing s e with
  | nil => exact ⟨.nil s e, rfl⟩
  | cons i rest ih =>
    obtain ⟨hi, hrest⟩ := List.nodup_cons.1 hl
    obtain ⟨htrims, hleft⟩ := ih hrest (s.trimOne e i) (e - trimmable s i)
    have amounts : rest.map (trimmable (s.trimOne e i)) = rest.map (trimmable s) :=
      List.map_congr_left fun j hj => trimmable_congr <| by
        rw [grantSlot_trimOne, if_neg (ne_of_mem_of_not_mem hj hi)]
    rw [trimPhase_cons]
    exact ⟨htrims.cons hi, by rw [hleft, amounts, List.map_cons, List.sum_cons, Nat.sub_sub]⟩

/-! ## The revoke phase -/

namespace RevokesInOrder

variable {s u : State} {i : GrantNo} {l : List GrantNo} {e : Nat}

/-- With no excess nothing is revoked. -/
theorem none (s : State) (l : List GrantNo) : RevokesInOrder s s l 0 :=
  ⟨fun _ _ => rfl, fun _ _ _ => by simp [excessAt], by simp [excessAt]⟩

theorem nil (s : State) (e : Nat) : RevokesInOrder s s [] e :=
  ⟨fun _ _ => rfl, fun _ _ h => (by simp at h), by simp⟩

/-- With some excess the first candidate is revoked, then the others while excess is left. -/
theorem cons (he : e ≠ 0) (hi : i ∉ l) (h : RevokesInOrder (s.revokeOne i) u l (e - s.unitsOf i)) :
    RevokesInOrder s u (i :: l) e := by
  have hpos : excessAt (s.unitsOf i :: l.map s.unitsOf) e 0 = true := decide_eq_true (Nat.pos_of_ne_zero he)
  have hother {j : GrantNo} (hj : j ≠ i) : (s.revokeOne i).grantSlot j = s.grantSlot j := by
    rw [State.grantSlot_revokeOne, if_neg hj]
  have hne {j : GrantNo} (hj : j ∈ l) : j ≠ i := ne_of_mem_of_not_mem hj hi
  have amounts : l.map (s.revokeOne i).unitsOf = l.map s.unitsOf :=
    List.map_congr_left fun j hj => State.unitsOf_congr (hother (hne hj))
  obtain ⟨others, slots, transit⟩ := h
  rw [amounts] at slots transit
  refine ⟨fun j hj => ?_, fun k j hk => ?_, ?_⟩
  · obtain ⟨hji, hjl⟩ := not_or.1 (mt List.mem_cons.2 hj)
    rw [others j hjl, hother hji]
  · cases k with
    | zero =>
      cases hk
      rw [others i hi, State.grantSlot_revokeOne, if_pos rfl, List.map_cons, hpos, if_pos rfl]
    | succ k =>
      have hkl : l[k]? = some j := hk
      rw [slots k j hkl, hother (hne (List.mem_of_getElem? hkl)), List.map_cons, excessAt_succ]
  · rw [transit, State.transit_revokeOne, filterMap_zipIdx_cons, List.append_assoc, List.map_cons, hpos, if_pos rfl]
    simp only [excessAt_succ]
    congr 2
    exact filterMap_zipIdx_congr fun k j hk => by
      rw [State.shedNotice_congr (hother (hne (List.mem_of_getElem? hk)))]

end RevokesInOrder

/-- The revoke phase in its closed form: which candidates it frees, and its notices (R90). -/
theorem State.revokePhase_inOrder {l : List GrantNo} (hl : l.Nodup) (s : State) (e : Nat) :
    RevokesInOrder s (s.revokePhase e l) l e := by
  induction l generalizing s e with
  | nil => exact .nil s e
  | cons i rest ih =>
    by_cases he : e = 0
    · subst he
      rw [revokePhase_zero]
      exact .none s (i :: rest)
    · obtain ⟨hi, hrest⟩ := List.nodup_cons.1 hl
      rw [revokePhase_cons he]
      exact (ih hrest (s.revokeOne i) (e - s.unitsOf i)).cons he hi

/-! ## The two phases together -/

theorem trimAt_eq (s : State) (l : List GrantNo) (e k : Nat) :
    trimAt s l e k = takenAt (l.map (trimmable s)) e k := by
  simp [trimAt, takenAt, List.map_take]

/-- What the trim phase leaves of the excess meets the trimmed units: a candidate is revoked when the amounts that no trim
can take of those before it do not cover what all trims leave (R90). -/
theorem TrimsInOrder.excessAt_eq {s t : State} {l : List GrantNo} {e : Nat} (h : TrimsInOrder s t l e) (k : Nat) :
    excessAt (l.map t.unitsOf) (e - (l.map (trimmable s)).sum) k = revokesAt s l e k := by
  by_cases hsum : (l.map (trimmable s)).sum < e
  · have amounts : l.map t.unitsOf = l.map (untrimmable s) := by
      refine List.map_congr_left fun i hi => State.unitsOf_trimmed ?_
      obtain ⟨m, hm⟩ := List.mem_iff_getElem?.1 hi
      rw [h.slots m i hm, takenAt_of_sum_lt hsum (by rw [List.getElem?_map, hm]; rfl)]
    rw [amounts, excessAt, revokesAt, List.map_take]
    exact decide_eq_decide.2 (by omega)
  · rw [excessAt, revokesAt]
    exact decide_eq_decide.2 (by omega)

/-- A shed leaves its age list as the live grants of the one before, in their order (R26). -/
theorem State.ageList_shed {s : State} (ha : AgeLaw s) (n : PoolNo) :
    (s.shed n).ageList = s.ageList.filter fun i => ((s.shed n).grant? i).isSome := by
  refine shed_induct (P := fun t => t.ageList = s.ageList.filter fun i => (t.grant? i).isSome) ?_ ?_ s n ?_
  · intro t i g v ht hg _ _
    show (t.shrinkGrant i g v).ageList = s.ageList.filter fun j => ((t.shrinkGrant i g v).grant? j).isSome
    have hlist : (t.shrinkGrant i g v).ageList = t.ageList := by rw [shrinkGrant_frame]
    rw [hlist, ht]
    refine List.filter_congr fun j _ => ?_
    rw [grant?_shrinkGrant]
    split
    · rename_i hj; rw [hj, hg]; rfl
    · rfl
  · intro t i g ht hg
    show (t.freeGrant i).ageList = s.ageList.filter fun j => ((t.freeGrant i).grant? j).isSome
    have hlist : (t.freeGrant i).ageList = t.ageList.filter (· ≠ i) := by rw [freeGrant_live hg]
    rw [hlist, ht, List.filter_filter]
    refine List.filter_congr fun j _ => ?_
    rw [grant?_freeGrant]
    by_cases hj : j = i <;> simp [hj]
  · exact (List.filter_eq_self.2 fun i hi => (ha.2 i).1 hi).symm

/-- A shed in its closed form (R87 to R91). -/
theorem State.shedsInOrder {s : State} (ha : AgeLaw s) (n : PoolNo) :
    ShedsInOrder s (s.shed n) (s.shedRanking n) ((s.pool n).charged - (s.pool n).effective) := by
  have hnodup := nodup_shedRanking ha n
  obtain ⟨htrims, hleft⟩ := trimPhase_inOrder hnodup s (s.pool n).excess
  have hrevokes := revokePhase_inOrder hnodup (s.trimPhase (s.pool n).excess (s.shedRanking n)).1
    (s.trimPhase (s.pool n).excess (s.shedRanking n)).2
  have hage := ageList_shed ha n
  have hshed : s.shed n = (s.trimPhase (s.pool n).excess (s.shedRanking n)).1.revokePhase
      (s.trimPhase (s.pool n).excess (s.shedRanking n)).2 (s.shedRanking n) := rfl
  rw [← hshed, hleft] at hrevokes
  change ShedsInOrder s (s.shed n) (s.shedRanking n) (s.pool n).excess
  generalize (s.trimPhase (s.pool n).excess (s.shedRanking n)).1 = t at htrims hrevokes
  generalize s.shed n = u at hage hrevokes ⊢
  generalize (s.pool n).excess = e at htrims hrevokes ⊢
  generalize s.shedRanking n = l at htrims hrevokes ⊢
  refine ⟨fun i hi => ?_, fun k i g hk hg => ?_, hage, ?_⟩
  · rw [hrevokes.others i hi, htrims.others i hi]
  · have hgrant : (s.grantSlot i).grant = some g := hg
    rw [hrevokes.slots k i hk, htrims.excessAt_eq, htrims.slots k i hk, ← trimAt_eq]
    simp only [GrantSlot.revoked, GrantSlot.trimmed, hgrant]
    rfl
  · have hnotices : (l.zipIdx.filterMap fun x => if revokesAt s l e x.2 then t.shedNotice x.1 else none) =
        l.zipIdx.filterMap fun x => if revokesAt s l e x.2 then s.shedNotice x.1 else none :=
      filterMap_zipIdx_congr fun k i hk => by rw [shedNotice_trimmed (htrims.slots k i hk)]
    rw [hrevokes.transit, htrims.transit]
    simp only [htrims.excessAt_eq, ← trimAt_eq]
    rw [hnotices]
    congr 1
    refine List.filterMap_congr fun x _ => ?_
    rw [shedNotice]
    cases s.grant? x.1 with
    | none => exact ite_self _
    | some g => rfl

end Sys2Proof.Machine
end

section
/-! Proofs, part 36: a derate event (R86, R91). -/

namespace Sys2Proof.Machine

/-! ## A shed among other pools that become DERATED -/

namespace OnlySheds

variable {s t : State}

/-- What a shed touches does not depend on a derate state that is set before it or after it. -/
theorem setDerate (h : OnlySheds s t) (x : DerateState) (n : PoolNo) :
    OnlySheds (s.setDerate x n) (t.setDerate x n) := by
  obtain ⟨hframe, hpools, hgrants⟩ := h
  refine ⟨?_, fun m => ?_, hgrants⟩
  · exact congrArg (fun y : State => { y with pools := (t.setDerate x n).pools }) hframe
  · rw [State.setDerate, State.setDerate, State.pool_modPool, State.pool_modPool]
    by_cases hm : m = n
    · rw [if_pos hm, if_pos hm, hpools n]
    · rw [if_neg hm, if_neg hm]; exact hpools m

theorem foldl_setDerate (h : OnlySheds s t) (x : DerateState) (l : List PoolNo) :
    OnlySheds (l.foldl (State.setDerate x) s) (l.foldl (State.setDerate x) t) := by
  induction l generalizing s t with
  | nil => exact h
  | cons n rest ih => exact ih (h.setDerate x n)

end OnlySheds

theorem State.deratePool_eq (s : State) (n : PoolNo) : s.deratePool n = (s.setDerate .derated n).shed n := rfl

/-- Pools that become DERATED and are shed one by one end as if all were DERATED first, but for what the sheds touch (R86). -/
theorem State.onlySheds_foldl_deratePool (l : List PoolNo) (s : State) :
    OnlySheds (l.foldl (setDerate .derated) s) (l.foldl deratePool s) := by
  induction l generalizing s with
  | nil => exact .refl s
  | cons n rest ih =>
    have first : OnlySheds (s.setDerate .derated n) (s.deratePool n) := onlySheds_shed _ n
    exact (first.foldl_setDerate .derated rest).trans (ih (s.deratePool n))

/-! ## The group within its derated capacity -/

/-- A pool is DERATED and its charged sum within its derated capacity (law L2). -/
def WithinDerated (s : State) (n : PoolNo) : Prop :=
  (s.pool n).derateState = .derated ∧ (s.pool n).charged ≤ (s.pool n).derated

/-- The laws on which a shed brings its pool within its capacity. -/
structure SheddingLaws (s : State) : Prop where
  age : AgeLaw s
  family : FamilyLaw s
  charge : ChargeLaw s

namespace SheddingLaws

variable {s : State}

theorem setDerate (h : SheddingLaws s) (x : DerateState) (n : PoolNo) : SheddingLaws (s.setDerate x n) :=
  ⟨⟨h.age.1, h.age.2⟩, State.family_modPool (fun _ => rfl) (fun _ => rfl) h.family,
    State.charge_modPool (fun _ => rfl) (fun _ => rfl) h.charge⟩

theorem shed (h : SheddingLaws s) (n : PoolNo) : SheddingLaws (s.shed n) :=
  ⟨State.age_shed h.age n, State.family_shed h.family n, State.charge_shed h.family h.charge n⟩

theorem deratePool (h : SheddingLaws s) (n : PoolNo) : SheddingLaws (s.deratePool n) := (h.setDerate .derated n).shed n

/-- A pool that becomes DERATED and is shed is within its derated capacity (R86, R91). -/
theorem deratePool_within (h : SheddingLaws s) (n : PoolNo) : WithinDerated (s.deratePool n) n := by
  obtain ⟨hage, hfamily, hcharge⟩ := h.setDerate .derated n
  obtain ⟨hfig, _⟩ := State.chargesFall_shed hfamily n n
  have hwithin := State.shed_within hfamily hcharge hage n
  rw [← State.deratePool_eq] at hfig hwithin
  have hstate : ((s.deratePool n).pool n).derateState = .derated := by
    rw [hfig, State.setDerate, State.pool_modPool, if_pos rfl]
  rw [State.effective_of_derated hstate] at hwithin
  exact ⟨hstate, hwithin⟩

/-- Derating one pool keeps every other within its derated capacity: charged sums fall alone. -/
theorem deratePool_keeps (h : SheddingLaws s) (n : PoolNo) {m : PoolNo} (hm : WithinDerated s m) :
    WithinDerated (s.deratePool n) m := by
  by_cases hmn : m = n
  · rw [hmn]; exact h.deratePool_within n
  · obtain ⟨hfig, hfall⟩ := State.chargesFall_shed (h.setDerate .derated n).family n m
    rw [← State.deratePool_eq, State.setDerate, State.pool_modPool, if_neg hmn] at hfig hfall
    obtain ⟨hstate, hcharged⟩ := hm
    have hderated : ((s.deratePool n).pool m).derated = (s.pool m).derated := by rw [hfig]
    exact ⟨by rw [hfig]; exact hstate, by rw [hderated]; exact Nat.le_trans hfall hcharged⟩

/-- After a list of pools is derated one by one, each of them is within its derated capacity (R86, R91). -/
theorem foldl_deratePool_within (l : List PoolNo) {s : State} (h : SheddingLaws s) {m : PoolNo}
    (hm : m ∈ l ∨ WithinDerated s m) : WithinDerated (l.foldl State.deratePool s) m := by
  induction l generalizing s with
  | nil => exact hm.resolve_left List.not_mem_nil
  | cons n rest ih =>
    refine ih (h.deratePool n) ?_
    rcases hm with hm | hm
    · rcases List.mem_cons.1 hm with rfl | hrest
      · exact .inr (h.deratePool_within m)
      · exact .inl hrest
    · exact .inr (h.deratePool_keeps n hm)

end SheddingLaws

/-- Settles O46: a shed in its closed form, and a derate event as sheds of the group's pools, each of which brings its pool
within its derated capacity and leaves those before it there. -/
theorem derateLeavesGroupWithinCapacity : Obligations.DerateLeavesGroupWithinCapacity := by
  refine ⟨fun s n ha => ⟨State.ranksCandidates_shedRanking ha n, State.shedsInOrder ha n,
    fun hf hc => State.charge_shed hf hc n⟩, fun s t g hfree hfirst ha hf hc => ?_⟩
  have hexec : exec (.derateEvent g) s =
      .next (({ t with sagEvents := t.sagEvents.erase (.derate g) } : State).derate g) :=
    coreEvent_firstOfLine (e := .derate g) hfree hfirst fun u => u.derate g
  generalize hw : ({ t with sagEvents := t.sagEvents.erase (.derate g) } : State) = w at hexec
  have hpoolW (n : PoolNo) : w.pool n = t.pool n := by rw [← hw]; rfl
  have hlaws : SheddingLaws w := by subst hw; exact ⟨ha, hf, hc⟩
  have hgroup (n : PoolNo) : n ∈ (List.finRange 8).filter (w.inGroup g) ↔
      (t.pool n).defined = true ∧ (t.pool n).group = some g := by
    rw [List.mem_filter, State.inGroup_iff, hpoolW]
    exact and_iff_right (List.mem_finRange n)
  obtain ⟨hpool, hframe⟩ := State.foldl_setDerate (x := .derated) ((List.finRange 8).filter (w.inGroup g)) w
  have hbare := (((List.finRange 8).filter (w.inGroup g)).foldl State.deratePool w).detachesBare_closeIfDone
  refine ⟨_, _, hexec, ?_, fun n => ?_, ?_, (State.onlySheds_foldl_deratePool _ w).detachesBare hbare,
    fun n hdefined hn => ?_⟩
  · subst hw; exact hframe
  · rw [hpool n, hpoolW]
    simp only [hgroup]
  · subst hw; exact hbare
  · obtain ⟨_, hwithin⟩ := hlaws.foldl_deratePool_within _ (.inl ((hgroup n).2 ⟨hdefined, hn⟩))
    rw [State.derate, hbare.pool n]
    exact hwithin

end Sys2Proof.Machine
end

section
/-! Proofs, part 37: what a port may hold by its session (L8, R101) and the audit window (L10), by what is added to the
holdings and what is left of the AUDIT ones. -/

namespace Sys2Proof.Machine

/-! ## The two laws, clause by clause -/

/-- L8 but for its clause on what a RECOVERING port must hold: what stays true between a freeing and the consequences that
R113 and R139 draw from it. -/
structure HoldsBySession (s : State) : Prop where
  grant : ∀ i, ∀ g ∈ s.grant? i, (s.session g.port).state = .attached ∨
    ((s.session g.port).state = .recovering ∧ g.state = .audit)
  held : ∀ n p, s.token n = .held p → (s.session p).state = .attached
  audit : ∀ n p, s.token n = .audit p → (s.session p).state = .attached ∨ (s.session p).state = .recovering
  record : ∀ w, ∀ r ∈ s.record? w, (s.session r.port).state = .attached
  watch : ∀ p, s.watch p ≠ 0 → (s.session p).state = .attached
  lease : ∀ p, (s.port p).lease.isSome → (s.session p).state = .attached

/-- A RECOVERING port holds an AUDIT holding (R113). -/
def RecoveringHoldsAudit (s : State) : Prop := ∀ p, (s.session p).state = .recovering → s.holdsAudit p = true

/-- L8 and L10, with L8's clause on RECOVERING ports apart. -/
structure HoldingLaws (s : State) : Prop where
  holds : HoldsBySession s
  recovering : RecoveringHoldsAudit s
  window : WindowLaw s

theorem SessionLaw.holdingLaws {s : State} (h : SessionLaw s) (hw : WindowLaw s) : HoldingLaws s := by
  obtain ⟨hgrant, hheld, haudit, hrecord, hwatch, hrecovering, hlease⟩ := h
  exact ⟨⟨hgrant, hheld, haudit, hrecord, hwatch, hlease⟩, hrecovering, hw⟩

theorem HoldingLaws.sessionLaw {s : State} (h : HoldingLaws s) : SessionLaw s :=
  ⟨h.holds.grant, h.holds.held, h.holds.audit, h.holds.record, h.holds.watch, h.recovering, h.holds.lease⟩

/-- A RECOVERING port without an AUDIT holding holds nothing, and its lease counter is stopped (R101). -/
theorem HoldsBySession.nothing_of_bare {s : State} (h : HoldsBySession s) {p : Port}
    (hp : (s.session p).state = .recovering) (hbare : s.holdsAudit p = false) :
    HoldsNothing s p ∧ (s.port p).lease = none := by
  have hnot : (s.session p).state ≠ .attached := by rw [hp]; exact SessionState.noConfusion
  have hnone : ¬ s.holdsAudit p = true := by rw [hbare]; exact Bool.false_ne_true
  refine ⟨⟨fun i g hg hport => ?_, fun w r hr hport => hnot (hport ▸ h.record w r hr), fun n => ⟨fun hn => hnot (h.held n p hn),
    fun hn => hnone (State.holdsAudit_iff.2 (.inr ⟨n, hn⟩))⟩, ?_⟩, ?_⟩
  · rcases h.grant i g hg with ha | ⟨_, ha⟩
    · exact hnot (hport ▸ ha)
    · exact hnone (State.holdsAudit_iff.2 (.inl ⟨i, g, hg, hport, ha⟩))
  · by_contra hw; exact hnot (h.watch p hw)
  · exact Option.not_isSome_iff_eq_none.1 fun hl => hnot (h.lease p hl)

/-! ## What is added to the holdings -/

/-- From `s` to `t` no port comes to hold what it did not hold in `s`, but that ports which `A` picks out may gain ACTIVE
grants, HELD tokens, records and watches, and their lease counters may start. -/
structure GainsOnly (A : Port → Prop) (s t : State) : Prop where
  grant : ∀ i, ∀ g ∈ t.grant? i, (∃ x ∈ s.grant? i, x.port = g.port ∧ x.state = g.state) ∨ (A g.port ∧ g.state = .active)
  token : ∀ n, t.token n = .free ∨ t.token n = s.token n ∨ ∃ p, A p ∧ t.token n = .held p
  record : ∀ w, ∀ r ∈ t.record? w, (∃ x ∈ s.record? w, x.port = r.port) ∨ A r.port
  watch : ∀ p, t.watch p ≠ 0 → s.watch p ≠ 0 ∨ A p
  lease : ∀ p, (t.port p).lease.isSome → (s.port p).lease.isSome ∨ A p

/-- From `s` to `t` no port comes to hold what it did not hold in `s`. -/
abbrev GainsNothing (s t : State) : Prop := GainsOnly (fun _ => False) s t

namespace GainsOnly

variable {A : Port → Prop} {s t u : State}

theorem refl (s : State) : GainsOnly A s s :=
  ⟨fun _ g hg => .inl ⟨g, hg, rfl, rfl⟩, fun _ => .inr (.inl rfl), fun _ r hr => .inl ⟨r, hr, rfl⟩, fun _ => .inl, fun _ => .inl⟩

theorem trans (h : GainsOnly A s t) (k : GainsOnly A t u) : GainsOnly A s u := by
  refine ⟨fun i g hg => ?_, fun n => ?_, fun w r hr => ?_, fun p hp => ?_, fun p hp => ?_⟩
  · rcases k.grant i g hg with ⟨x, hx, hport, hstate⟩ | hA
    · rw [← hport, ← hstate]; exact h.grant i x hx
    · exact .inr hA
  · rcases k.token n with hn | hn | hA
    · exact .inl hn
    · rw [hn]; exact h.token n
    · exact .inr (.inr hA)
  · rcases k.record w r hr with ⟨x, hx, hport⟩ | hA
    · rw [← hport]; exact h.record w x hx
    · exact .inr hA
  · exact (k.watch p hp).elim (h.watch p) .inr
  · exact (k.lease p hp).elim (h.lease p) .inr

theorem mono {B : Port → Prop} (h : GainsOnly A s t) (hAB : ∀ p, A p → B p) : GainsOnly B s t :=
  ⟨fun i g hg => (h.grant i g hg).imp_right fun ⟨hA, hg⟩ => ⟨hAB _ hA, hg⟩,
    fun n => (h.token n).imp_right fun hn => hn.imp_right fun ⟨p, hA, hp⟩ => ⟨p, hAB p hA, hp⟩,
    fun w r hr => (h.record w r hr).imp_right (hAB _), fun p hp => (h.watch p hp).imp_right (hAB p),
    fun p hp => (h.lease p hp).imp_right (hAB p)⟩

theorem foldl {α : Type} {f : State → α → State} (hf : ∀ s x, GainsOnly A s (f s x)) (l : List α) (s : State) :
    GainsOnly A s (l.foldl f s) := by
  induction l generalizing s with
  | nil => exact refl s
  | cons x rest ih => exact (hf s x).trans (ih (f s x))

/-- Steps that leave the tables of holdings and start no lease counter. -/
theorem of_tables (hg : t.grants = s.grants) (ht : t.tokens = s.tokens) (hw : t.waits = s.waits)
    (hwatch : t.watches = s.watches) (hl : ∀ p, (t.port p).lease.isSome → (s.port p).lease.isSome) : GainsOnly A s t := by
  refine ⟨fun i g h => .inl ⟨g, ?_, rfl, rfl⟩, fun n => .inr (.inl ?_), fun w r h => .inl ⟨r, ?_, rfl⟩, fun p h => .inl ?_,
    fun p h => .inl (hl p h)⟩
  · rwa [State.grant?, State.grantSlot, ← hg]
  · rw [State.token, ht]; rfl
  · rwa [State.record?, State.waitSlot, ← hw]
  · rwa [State.watch, ← hwatch]

/-- No AUDIT holding comes about. -/
theorem holdsAudit (h : GainsOnly A s t) {p : Port} (hp : t.holdsAudit p = true) : s.holdsAudit p = true := by
  rw [State.holdsAudit_iff] at hp ⊢
  rcases hp with ⟨i, g, hg, hport, ha⟩ | ⟨n, hn⟩
  · rcases h.grant i g hg with ⟨x, hx, hxport, hxstate⟩ | ⟨_, hactive⟩
    · exact .inl ⟨i, x, hx, hxport.trans hport, hxstate.trans ha⟩
    · rw [hactive] at ha; cases ha
  · rcases h.token n with hfree | hsame | ⟨q, _, hheld⟩
    · rw [hn] at hfree; cases hfree
    · exact .inr ⟨n, hsame.symm.trans hn⟩
    · rw [hn] at hheld; cases hheld

theorem anyAudit (h : GainsOnly A s t) (ht : t.anyAudit = true) : s.anyAudit = true := by
  unfold State.anyAudit at ht ⊢
  rw [List.any_eq_true] at ht ⊢
  obtain ⟨p, hp, ha⟩ := ht
  exact ⟨p, hp, h.holdsAudit ha⟩

end GainsOnly

/-- How the session of a port may move while what it may hold stays lawful: it stays in its state, comes to ATTACHED, or
changes state while the port holds nothing and its lease counter is stopped. -/
def SessionMoves (s t : State) (p : Port) : Prop :=
  (t.session p).state = (s.session p).state ∨ (t.session p).state = .attached ∨
    (HoldsNothing t p ∧ (t.port p).lease = none)

/-- Ports that gain are ATTACHED: then what ports hold stays lawful. -/
theorem HoldsBySession.gains {A : Port → Prop} {s t : State} (h : HoldsBySession s) (k : GainsOnly A s t)
    (hA : ∀ p, A p → (t.session p).state = .attached) (hs : ∀ p, SessionMoves s t p) : HoldsBySession t := by
  refine ⟨fun i g hg => ?_, fun n p hn => ?_, fun n p hn => ?_, fun w r hr => ?_, fun p hp => ?_, fun p hp => ?_⟩
  · rcases hs g.port with hsame | hatt | ⟨⟨hnone, _⟩, _⟩
    · rw [hsame]
      rcases k.grant i g hg with ⟨x, hx, hport, hstate⟩ | ⟨hgain, _⟩
      · rw [← hport, ← hstate]; exact h.grant i x hx
      · rw [← hsame]; exact .inl (hA _ hgain)
    · exact .inl hatt
    · exact absurd rfl (hnone i g hg)
  · rcases hs p with hsame | hatt | ⟨⟨_, _, hnone, _⟩, _⟩
    · rcases k.token n with hfree | htok | ⟨q, hq, hheld⟩
      · rw [hn] at hfree; cases hfree
      · rw [hsame]; exact h.held n p (htok.symm.trans hn)
      · rw [hn] at hheld; cases hheld; exact hA p hq
    · exact hatt
    · exact absurd hn (hnone n).1
  · rcases hs p with hsame | hatt | ⟨⟨_, _, hnone, _⟩, _⟩
    · rcases k.token n with hfree | htok | ⟨q, _, hheld⟩
      · rw [hn] at hfree; cases hfree
      · rw [hsame]; exact h.audit n p (htok.symm.trans hn)
      · rw [hn] at hheld; cases hheld
    · exact .inl hatt
    · exact absurd hn (hnone n).2
  · rcases hs r.port with hsame | hatt | ⟨⟨_, hnone, _⟩, _⟩
    · rcases k.record w r hr with ⟨x, hx, hport⟩ | hgain
      · rw [hsame, ← hport]; exact h.record w x hx
      · exact hA _ hgain
    · exact hatt
    · exact absurd rfl (hnone w r hr)
  · rcases hs p with hsame | hatt | ⟨⟨_, _, _, hnone⟩, _⟩
    · rw [hsame]
      exact (k.watch p hp).elim (h.watch p) fun hgain => hsame ▸ hA p hgain
    · exact hatt
    · exact absurd hnone hp
  · rcases hs p with hsame | hatt | ⟨_, hnone⟩
    · rw [hsame]
      exact (k.lease p hp).elim (h.lease p) fun hgain => hsame ▸ hA p hgain
    · exact hatt
    · rw [hnone] at hp; cases hp

/-- What ports hold stays lawful while ports that are ATTACHED gain and no session moves. -/
theorem HoldsBySession.gains_attached {s t : State} (h : HoldsBySession s)
    (k : GainsOnly (fun p => (s.session p).state = .attached) s t) (hs : t.sessions = s.sessions) : HoldsBySession t := by
  have hsession (p : Port) : t.session p = s.session p := by simp only [State.session, hs]
  exact h.gains k (fun p hp => by rw [hsession p]; exact hp) fun p => .inl (by rw [hsession p])

/-! ## What is left of the AUDIT holdings -/

/-- From `s` to `t` every port keeps its AUDIT holdings, and the window stays open or closed. -/
structure KeepsAudit (s t : State) : Prop where
  audit : ∀ p, s.holdsAudit p = true → t.holdsAudit p = true
  window : t.window.isOpen = s.window.isOpen

namespace KeepsAudit

variable {s t u : State}

theorem refl (s : State) : KeepsAudit s s := ⟨fun _ h => h, rfl⟩

theorem trans (h : KeepsAudit s t) (k : KeepsAudit t u) : KeepsAudit s u :=
  ⟨fun p hp => k.audit p (h.audit p hp), k.window.trans h.window⟩

/-- AUDIT grants and tokens stay with their ports. -/
theorem of_holdings (hg : ∀ i, ∀ g ∈ s.grant? i, g.state = .audit → ∃ x ∈ t.grant? i, x.port = g.port ∧ x.state = .audit)
    (ht : ∀ n p, s.token n = .audit p → t.token n = .audit p) (hw : t.window.isOpen = s.window.isOpen) : KeepsAudit s t := by
  refine ⟨fun p hp => ?_, hw⟩
  rw [State.holdsAudit_iff] at hp ⊢
  rcases hp with ⟨i, g, hgi, hport, ha⟩ | ⟨n, hn⟩
  · obtain ⟨x, hx, hxport, hxa⟩ := hg i g hgi ha
    exact .inl ⟨i, x, hx, hxport.trans hport, hxa⟩
  · exact .inr ⟨n, ht n p hn⟩

theorem of_tables (hg : t.grants = s.grants) (ht : t.tokens = s.tokens) (hw : t.window.isOpen = s.window.isOpen) :
    KeepsAudit s t := by
  refine .of_holdings (fun i g h ha => ⟨g, ?_, rfl, ha⟩) (fun n p hn => ?_) hw
  · rwa [State.grant?, State.grantSlot, hg]
  · rwa [State.token, ht]

end KeepsAudit

/-! ## The laws from these -/

/-- What leaves every AUDIT holding, and gives only to ports that are or become ATTACHED, keeps the laws. -/
theorem HoldingLaws.gains {A : Port → Prop} {s t : State} (h : HoldingLaws s) (k : GainsOnly A s t) (ka : KeepsAudit s t)
    (hA : ∀ p, A p → (t.session p).state = .attached)
    (hs : ∀ p, (t.session p).state = (s.session p).state ∨ (t.session p).state = .attached) : HoldingLaws t := by
  refine ⟨h.holds.gains k hA fun p => (hs p).imp_right .inl, fun p hp => ?_, ?_⟩
  · rcases hs p with hsame | hatt
    · exact ka.audit p (h.recovering p (hsame.symm.trans hp))
    · rw [hatt] at hp; cases hp
  · have hany : s.anyAudit = true → t.anyAudit = true := fun hany => by
      obtain ⟨p, hp, ha⟩ := List.any_eq_true.1 hany
      exact List.any_eq_true.2 ⟨p, hp, ka.audit p ha⟩
    rw [WindowLaw, ka.window, h.window, Bool.eq_iff_iff]
    exact ⟨hany, k.anyAudit⟩

/-- What leaves every AUDIT holding, gives to ATTACHED ports alone and moves no session keeps the laws. -/
theorem HoldingLaws.gains_attached {s t : State} (h : HoldingLaws s)
    (k : GainsOnly (fun p => (s.session p).state = .attached) s t) (ka : KeepsAudit s t) (hs : t.sessions = s.sessions) :
    HoldingLaws t := by
  have hsession (p : Port) : t.session p = s.session p := by simp only [State.session, hs]
  exact h.gains k ka (fun p hp => by rw [hsession p]; exact hp) fun p => .inl (by rw [hsession p])

/-- The window's consequence of AUDIT holdings that went (R139): with what ports hold lawful, the laws hold once it is drawn. -/
theorem HoldingLaws.closing {s t : State} (h : HoldingLaws s) (holds : HoldsBySession t) (hr : RecoveringHoldsAudit t)
    (hany : t.anyAudit = true → s.anyAudit = true) (hw : t.window = windowAfter s t) : HoldingLaws t := by
  refine ⟨holds, hr, ?_⟩
  have hopen := h.window
  unfold WindowLaw at hopen ⊢
  rw [hw, windowAfter, hopen]
  cases ht : t.anyAudit with
  | true => simp [hopen, hany ht]
  | false => cases hs : s.anyAudit <;> simp [hopen, hs]

theorem HoldingLaws.closeIfDone {s t : State} (h : HoldingLaws s) (holds : HoldsBySession t) (hr : RecoveringHoldsAudit t)
    (hany : t.anyAudit = true → s.anyAudit = true) (hw : t.window = s.window) : HoldingLaws t.closeIfDone := by
  rw [State.closeIfDone_eq]
  refine h.closing ⟨holds.grant, holds.held, holds.audit, holds.record, holds.watch, holds.lease⟩ hr hany ?_
  exact windowAfter_congr hw rfl

end Sys2Proof.Machine
end

section
/-! Proofs, part 38: what each operation of the core adds to the holdings and what it leaves of the AUDIT ones. -/

namespace Sys2Proof.Machine

namespace GainsOnly

variable {A : Port → Prop} {s t : State}

/-- Steps that move nothing but grants of what a port may hold. -/
theorem of_grants (hg : ∀ i, ∀ g ∈ t.grant? i,
      (∃ x ∈ s.grant? i, x.port = g.port ∧ x.state = g.state) ∨ (A g.port ∧ g.state = .active))
    (ht : t.tokens = s.tokens) (hw : t.waits = s.waits) (hwatch : t.watches = s.watches) (hp : t.ports = s.ports) :
    GainsOnly A s t := by
  have rest : GainsOnly A s { t with grants := s.grants } := .of_tables rfl ht hw hwatch fun p => by
    simp only [State.port, hp]; exact id
  exact ⟨hg, rest.token, rest.record, rest.watch, rest.lease⟩

/-- Steps that move nothing but tokens and watch sets of what a port may hold. -/
theorem of_tokens (ht : ∀ n, t.token n = .free ∨ t.token n = s.token n ∨ ∃ p, A p ∧ t.token n = .held p)
    (hwatch : ∀ p, t.watch p ≠ 0 → s.watch p ≠ 0 ∨ A p) (hg : t.grants = s.grants) (hw : t.waits = s.waits)
    (hp : t.ports = s.ports) : GainsOnly A s t := by
  have rest : GainsOnly A s { t with tokens := s.tokens, watches := s.watches } := .of_tables hg rfl hw rfl fun p => by
    simp only [State.port, hp]; exact id
  exact ⟨rest.grant, ht, rest.record, hwatch, rest.lease⟩

/-- Steps that move nothing but wait records of what a port may hold. -/
theorem of_records (hr : ∀ w, ∀ r ∈ t.record? w, (∃ x ∈ s.record? w, x.port = r.port) ∨ A r.port)
    (hg : t.grants = s.grants) (ht : t.tokens = s.tokens) (hwatch : t.watches = s.watches) (hp : t.ports = s.ports) :
    GainsOnly A s t := by
  have rest : GainsOnly A s { t with waits := s.waits } := .of_tables hg ht rfl hwatch fun p => by
    simp only [State.port, hp]; exact id
  exact ⟨rest.grant, rest.token, hr, rest.watch, rest.lease⟩

end GainsOnly

namespace State

variable {A : Port → Prop} (s : State)

/-! ## Grants -/

theorem gains_freeGrant (i : GrantNo) : GainsOnly A s (s.freeGrant i) := by
  have hgrant (j : GrantNo) (x : Grant) (hx : x ∈ (s.freeGrant i).grant? j) : x ∈ s.grant? j := by
    rw [grant?_freeGrant] at hx
    split at hx
    · cases hx
    · exact hx
  cases hg : s.grant? i with
  | none => rw [freeGrant_free hg]; exact .refl s
  | some g =>
    refine .of_grants (fun j x hx => .inl ⟨x, hgrant j x hx, rfl, rfl⟩) ?_ ?_ ?_ ?_ <;> rw [freeGrant_live hg]

variable {s} {i : GrantNo} {g : Grant}

theorem gains_createGrant (hA : A g.port) (hg : g.state = .active) : GainsOnly A s (s.createGrant i g) := by
  refine .of_grants (fun j x hx => ?_) ?_ ?_ ?_ ?_
  · rw [grant?_createGrant] at hx
    split at hx
    · cases hx; exact .inr ⟨hA, hg⟩
    · exact .inl ⟨x, hx, rfl, rfl⟩
  all_goals rw [createGrant_frame]

theorem keepsAudit_createGrant (hi : s.grant? i = none) : KeepsAudit s (s.createGrant i g) := by
  refine .of_holdings (fun j x hx ha => ⟨x, ?_, rfl, ha⟩) (fun n p hn => ?_) (by rw [createGrant_frame])
  · rw [grant?_createGrant, if_neg]
    · exact hx
    · rintro rfl; rw [hi] at hx; cases hx
  · rw [createGrant_frame]; exact hn

/-- A grant that changes its units and floor alone stays what its port holds. -/
theorem gains_resized {t : State} {x : Grant} (hg : s.grant? i = some g) (hport : x.port = g.port)
    (hstate : x.state = g.state) (ht : t = { s with pools := t.pools, grants := t.grants })
    (hslot : ∀ j, t.grant? j = if j = i then some x else s.grant? j) : GainsOnly A s t ∧ KeepsAudit s t := by
  refine ⟨.of_grants (fun j y hy => .inl ?_) ?_ ?_ ?_ ?_, .of_holdings (fun j y hy ha => ?_) (fun n p hn => ?_) ?_⟩
  · rw [hslot j] at hy
    split at hy
    · rename_i hj; cases hy; exact ⟨g, by rw [hj]; exact hg, hport.symm, hstate.symm⟩
    · exact ⟨y, hy, rfl, rfl⟩
  any_goals rw [ht]
  · rw [← ht, hslot j]
    split
    · rename_i hj
      rw [hj, hg] at hy; cases hy
      exact ⟨x, rfl, hport, hstate.trans ha⟩
    · exact ⟨y, hy, rfl, ha⟩
  · exact hn

theorem gains_growGrant (hg : s.grant? i = some g) (v : Nat) :
    GainsOnly A s (s.growGrant i g v) ∧ KeepsAudit s (s.growGrant i g v) :=
  gains_resized hg (x := { g with units := v }) rfl rfl (by rw [growGrant_frame]) fun j => s.grant?_growGrant i j g v

theorem gains_shrinkGrant (hg : s.grant? i = some g) (v : Nat) :
    GainsOnly A s (s.shrinkGrant i g v) ∧ KeepsAudit s (s.shrinkGrant i g v) :=
  gains_resized hg (x := { g with units := v, floor := min g.floor v }) rfl rfl (by rw [shrinkGrant_frame])
    fun j => s.grant?_shrinkGrant i j g v

/-- A confirmed grant is an ACTIVE grant of its port (R183). -/
theorem gains_confirmedGrant (hA : A g.port) : GainsOnly A s (s.putGrant i { g with state := .active }) := by
  refine .of_grants (fun j x hx => ?_) rfl rfl rfl rfl
  rw [grant?_putGrant] at hx
  split at hx
  · cases hx; exact .inr ⟨hA, rfl⟩
  · exact .inl ⟨x, hx, rfl, rfl⟩

variable (s)

theorem gains_post (p : Port) (n : Notice) : GainsOnly A s (s.post p n) := .of_tables rfl rfl rfl rfl fun _ => id

/-! ## Wait records -/

theorem gains_removeRecord (w : WaitNo) : GainsOnly A s (s.removeRecord w) := by
  have hrecord (v : WaitNo) (r : WaitRecord) (hr : r ∈ (s.removeRecord w).record? v) : r ∈ s.record? v :=
    record?_of_removeRecord s hr
  cases hr : s.record? w with
  | none => rw [removeRecord_free hr]; exact .refl s
  | some r =>
    refine .of_records (fun v x hx => .inl ⟨x, hrecord v x hx, rfl⟩) ?_ ?_ ?_ ?_ <;> rw [removeRecord_live hr]

theorem keepsAudit_removeRecord (w : WaitNo) : KeepsAudit s (s.removeRecord w) := by
  cases hr : s.record? w with
  | none => rw [removeRecord_free hr]; exact .refl s
  | some r => rw [removeRecord_live hr]; exact .of_tables rfl rfl rfl

theorem sessions_removeRecord (w : WaitNo) : (s.removeRecord w).sessions = s.sessions := by
  cases hr : s.record? w with
  | none => rw [removeRecord_free hr]
  | some r => rw [removeRecord_live hr]

variable {s} in
theorem gains_queueRecord {r : WaitRecord} (hA : A r.port) (w : WaitNo) : GainsOnly A s (s.queueRecord w r) := by
  refine .of_records (fun v x hx => ?_) rfl rfl rfl rfl
  rw [record?_queueRecord] at hx
  split at hx
  · cases hx; exact .inr hA
  · exact .inl ⟨x, hx, rfl⟩

/-! ## The service pass -/

/-- A pass gives grants to ports whose records wait, and to no other (R55). -/
theorem gains_servicePass (roots : List PoolNo) :
    GainsOnly (fun p => ∃ w, ∃ r ∈ s.record? w, r.port = p) s (s.servicePass roots) := by
  have hserves := s.onlyServes_servicePass roots
  have hkeeps := s.passKeeps_servicePass roots
  refine ⟨fun i g hg => ?_, fun n => .inr (.inl (hserves.token n)), fun w r hr => .inl ⟨r, hkeeps.record w r hr, rfl⟩,
    fun p hp => .inl (by rwa [← hserves.watch p]), fun p hp => .inl (by rwa [← hserves.port p])⟩
  rcases hkeeps.grant i g hg with hold | ⟨hactive, hwaits⟩
  · exact .inl ⟨g, hold, rfl, rfl⟩
  · exact .inr ⟨hwaits, hactive⟩

theorem keepsAudit_servicePass (roots : List PoolNo) : KeepsAudit s (s.servicePass roots) := by
  have hserves := s.onlyServes_servicePass roots
  obtain ⟨_, _, hkeeps⟩ := id hserves
  exact .of_holdings (fun i g hg ha => ⟨g, hkeeps i g hg, rfl, ha⟩) (fun n p hn => (hserves.token n).trans hn)
    (by rw [hserves.window])

/-! ## Tokens -/

theorem gains_freeTokens (m : Word) : GainsOnly A s (s.freeTokens m) := by
  obtain ⟨htoken, hwatch, _, hframe⟩ := s.freeTokens_effect m
  refine .of_tokens (fun n => ?_) (fun p hp => .inl fun hz => hp ?_) ?_ ?_ ?_
  · rw [htoken n]
    split
    · exact .inl rfl
    · exact .inr (.inl rfl)
  · rw [hwatch p, hz]; exact BitVec.zero_and
  all_goals rw [hframe]

theorem gains_setWatch {p : Port} (hA : A p) (m : Word) : GainsOnly A s (s.setWatch p m) := by
  refine .of_tokens (fun n => .inr (.inl rfl)) (fun q hq => ?_) rfl rfl rfl
  rw [watch_setWatch] at hq
  split at hq
  · rename_i hqp; rw [hqp]; exact .inr hA
  · exact .inl hq

theorem gains_setTokens_held {p : Port} (hA : A p) (m : Word) : GainsOnly A s (s.setTokens m (.held p)) := by
  refine .of_tokens (fun n => ?_) (fun q hq => .inl hq) rfl rfl rfl
  rw [token_setTokens]
  split
  · exact .inr (.inr ⟨p, hA, rfl⟩)
  · exact .inr (.inl rfl)

/-! ## What draws the consequences of AUDIT holdings that went -/

theorem gains_detachBare : GainsOnly A s s.detachBare := by
  obtain ⟨_, hframe⟩ := s.detachBare_effect
  generalize s.detachBare = t at hframe
  rw [hframe]; exact .of_tables rfl rfl rfl rfl fun _ => id

end State

/-! ## Operations that free alone -/

/-- From `s` to `t` no port comes to hold anything, and neither a session nor the window moves. -/
structure OnlyFrees (s t : State) : Prop where
  gains : GainsNothing s t
  sessions : t.sessions = s.sessions
  window : t.window = s.window

namespace OnlyFrees

variable {s t u : State}

theorem refl (s : State) : OnlyFrees s s := ⟨.refl s, rfl, rfl⟩

theorem trans (h : OnlyFrees s t) (k : OnlyFrees t u) : OnlyFrees s u :=
  ⟨h.gains.trans k.gains, k.sessions.trans h.sessions, k.window.trans h.window⟩

theorem foldl {α : Type} {f : State → α → State} (hf : ∀ s x, OnlyFrees s (f s x)) (l : List α) (s : State) :
    OnlyFrees s (l.foldl f s) := by
  induction l generalizing s with
  | nil => exact refl s
  | cons x rest ih => exact (hf s x).trans (ih (f s x))

theorem post (s : State) (p : Port) (n : Notice) : OnlyFrees s (s.post p n) := ⟨s.gains_post p n, rfl, rfl⟩

theorem freeGrant (s : State) (i : GrantNo) : OnlyFrees s (s.freeGrant i) := by
  refine ⟨s.gains_freeGrant i, ?_, ?_⟩
  all_goals
    cases hg : s.grant? i with
    | none => rw [State.freeGrant_free hg]
    | some g => rw [State.freeGrant_live hg]

theorem freeTokens (s : State) (m : Word) : OnlyFrees s (s.freeTokens m) := by
  obtain ⟨_, _, _, hframe⟩ := s.freeTokens_effect m
  exact ⟨s.gains_freeTokens m, by rw [hframe], by rw [hframe]⟩

/-- A shed trims and revokes (R87 to R91). -/
theorem shed (s : State) (n : PoolNo) : OnlyFrees s (s.shed n) := by
  refine State.shed_induct (P := OnlyFrees s) ?_ ?_ s n (.refl s)
  · intro t i g v ht hg _ _
    have shrunk : OnlyFrees t (t.shrinkGrant i g v) :=
      ⟨(State.gains_shrinkGrant hg v).1, by rw [State.shrinkGrant_frame], by rw [State.shrinkGrant_frame]⟩
    exact (ht.trans shrunk).trans (post _ _ _)
  · exact fun t i g ht _ => (ht.trans (freeGrant t i)).trans (post _ _ _)

end OnlyFrees

/-! ## What keeps the laws -/

namespace HoldsBySession

variable {s : State}

/-- A pass keeps what ports hold lawful: it gives to ports with records, and those are ATTACHED. -/
theorem servicePass (h : HoldsBySession s) (roots : List PoolNo) : HoldsBySession (s.servicePass roots) := by
  refine h.gains_attached ((s.gains_servicePass roots).mono ?_) (s.onlyServes_servicePass roots).sessions
  rintro p ⟨w, r, hr, rfl⟩
  exact h.record w r hr

/-- A RECOVERING port that holds no AUDIT holding becomes DETACHED, and holds nothing (R113). -/
theorem detachBare (h : HoldsBySession s) : HoldsBySession s.detachBare := by
  obtain ⟨hsession, hframe⟩ := s.detachBare_effect
  have hgains : GainsNothing s s.detachBare := s.gains_detachBare
  generalize s.detachBare = t at hsession hframe hgains
  refine h.gains hgains (fun _ => False.elim) fun p => ?_
  rw [SessionMoves, hsession p]
  split
  · rename_i hp
    obtain ⟨hrec, hbare⟩ := hp
    have hnothing := h.nothing_of_bare hrec hbare
    rw [hframe]; exact .inr (.inr hnothing)
  · exact .inl rfl

end HoldsBySession

/-- After R113 is drawn every RECOVERING port holds an AUDIT holding. -/
theorem recoveringHoldsAudit_detachBare (s : State) : RecoveringHoldsAudit s.detachBare := by
  obtain ⟨hsession, hframe⟩ := s.detachBare_effect
  generalize s.detachBare = t at hsession hframe
  have haudit (p : Port) : t.holdsAudit p = s.holdsAudit p := by rw [hframe]; rfl
  intro p hp
  rw [haudit p]
  rw [hsession p] at hp
  split at hp
  · cases hp
  · rename_i hnot
    by_contra hbare
    exact hnot ⟨hp, Bool.eq_false_iff.2 hbare⟩

namespace HoldingLaws

variable {s : State}

theorem servicePass (h : HoldingLaws s) (roots : List PoolNo) : HoldingLaws (s.servicePass roots) := by
  refine h.gains_attached ((s.gains_servicePass roots).mono ?_) (s.keepsAudit_servicePass roots)
    (s.onlyServes_servicePass roots).sessions
  rintro p ⟨w, r, hr, rfl⟩
  exact h.holds.record w r hr

/-- R113 and R139 drawn of what frees alone: the laws hold again. -/
theorem detachBare_closeIfDone {t : State} (h : HoldingLaws s) (k : OnlyFrees s t) :
    HoldingLaws t.detachBare.closeIfDone := by
  have holds : HoldsBySession t := h.holds.gains_attached (k.gains.mono fun _ => False.elim) k.sessions
  obtain ⟨_, hframe⟩ := t.detachBare_effect
  refine h.closeIfDone holds.detachBare (recoveringHoldsAudit_detachBare t) ?_ ?_
  · exact (k.gains.trans t.gains_detachBare).anyAudit
  · rw [hframe]; exact k.window

theorem replyWith (h : HoldingLaws s) (p : Port) (x : Status) (l : List Byte) : HoldingLaws (s.replyWith p x l) :=
  h.gains_attached (.of_tables rfl rfl rfl rfl fun _ => id) (.of_tables rfl rfl rfl) rfl

theorem refuse (h : HoldingLaws s) (p : Port) (c : Command) (x : Status) : HoldingLaws (s.refuse p c x) :=
  h.replyWith p x _

end HoldingLaws

end Sys2Proof.Machine
end

section
/-! Proofs, part 39: the steps outside the core's work items and starts leave the holdings, and start no lease counter. -/

namespace Sys2Proof.Machine

/-- From `s` to `t` no lease counter starts. -/
def LeasesStop (s t : State) : Prop := ∀ p, (t.port p).lease.isSome → (s.port p).lease.isSome

namespace LeasesStop

variable {s t u : State}

theorem refl (s : State) : LeasesStop s s := fun _ => id

theorem trans (h : LeasesStop s t) (k : LeasesStop t u) : LeasesStop s u := fun p hp => h p (k p hp)

theorem foldl {α : Type} {f : State → α → State} (hf : ∀ s x, LeasesStop s (f s x)) (l : List α) (s : State) :
    LeasesStop s (l.foldl f s) := by
  induction l generalizing s with
  | nil => exact refl s
  | cons x rest ih => exact (hf s x).trans (ih (f s x))

theorem of_ports (h : t.ports = s.ports) : LeasesStop s t := fun p => by simp only [State.port, h]; exact id

/-- A change of one port controller that does not start its counter. -/
theorem modPort (s : State) (p : Port) {f : PortCtl → PortCtl}
    (hf : ∀ c, (f c).lease.isSome → c.lease.isSome := by exact fun _ h => h) : LeasesStop s (s.modPort p f) := fun q => by
  rw [State.port_modPort]
  split
  · rename_i hq; rw [hq]; exact hf _
  · exact id

theorem of_freshPorts (h : FreshPorts s t) : LeasesStop s t := fun q hq => by rw [h q] at hq; cases hq

/-- A row that comes about under a condition alone. -/
theorem guarded {P : Prop} [Decidable P] (h : LeasesStop s t) :
    Answers (LeasesStop s) (if P then .next t else .next s) := by
  split
  · exact .next h
  · exact .next (.refl s)

end LeasesStop

namespace State

variable (s : State) (p : Port)

/-! ## What is due, and the end of the item before -/

theorem leasesStop_runDue (d : Due) : LeasesStop s (s.runDue d) := by
  cases d with
  | lease p => exact .modPort s p fun _ h => nomatch h
  | deadline ticket => exact .of_ports rfl
  | audit => exact .of_ports rfl
  | lineAsserted g => refine .of_ports ?_; simp only [runDue, lineAsserts]; split <;> simp
  | lineDeasserted g => refine .of_ports ?_; simp only [runDue, lineDeasserts]; split <;> simp
  | qualify g => refine .of_ports ?_; simp only [runDue, qualifyRunsOut]; split <;> simp
  | restore g => refine .of_ports ?_; simp only [runDue, restoreRunsOut]; split <;> simp

theorem leasesStop_settle : LeasesStop s s.settle := by
  have cleared : LeasesStop s { s with due := [] } := .of_ports rfl
  exact cleared.trans (.foldl leasesStop_runDue s.due _)

theorem leasesStop_store (n : Notice) : LeasesStop s (s.modPort p (·.store n)) :=
  .modPort s p fun c => by
    obtain ⟨hframe, _⟩ := c.store_effect n
    rw [hframe]; exact id

theorem leasesStop_deliverPosts : LeasesStop s s.deliverPosts := by
  have cleared : LeasesStop s { s with transit := [] } := .of_ports rfl
  exact cleared.trans (.foldl (fun t (x : Port × Notice) => t.leasesStop_store x.1 x.2) s.transit _)

theorem leasesStop_placeReply (x : Status) (tag : Byte) (l : List Byte) : LeasesStop s (s.placeReply p x tag l) :=
  .modPort s p

theorem leasesStop_placeAnswer : LeasesStop s s.placeAnswer := by
  unfold placeAnswer
  split
  · exact .refl s
  · rename_i a _
    have cleared : LeasesStop s { s with answering := none } := .of_ports rfl
    exact (cleared.trans (.modPort _ a.port)).trans (leasesStop_placeReply _ _ _ _ _)

theorem leasesStop_ready : LeasesStop s s.ready :=
  (s.leasesStop_settle.trans (leasesStop_deliverPosts _)).trans (leasesStop_placeAnswer _)

theorem leasesStop_took : LeasesStop s (s.took p) :=
  (LeasesStop.modPort s p (f := fun c => { c with handedOn := c.handedOn.tail })).trans (.of_ports rfl)

theorem leasesStop_tickAll (a b : Level) : LeasesStop s (s.tickAll a b) := by
  rw [tickAll_eq]
  refine s.leasesStop_settle.trans fun p => ?_
  generalize s.settle = t
  have hport : (t.ports.map PortCtl.lowered)[p] = (t.port p).lowered := Vector.getElem_map _ p.isLt
  show ((t.ports.map PortCtl.lowered)[p]).lease.isSome → _
  rw [hport, PortCtl.lowered, Option.isSome_map]
  exact id

theorem leasesStop_cutTransactions : LeasesStop s s.cutTransactions := fun q => by
  have hport : s.cutTransactions.port q = { s.port q with
      transaction := (s.port q).transaction.map fun t => if t.kind = .notReady then t else { t with kind := .cut } } :=
    tabulate_get _ q
  rw [hport]; exact id

theorem leasesStop_abortSeal (cut : SealCut) : LeasesStop s (s.abortSeal cut) := by
  refine .of_ports ?_
  unfold abortSeal
  split <;> rfl

theorem leasesStop_discardWork : LeasesStop s s.discardWork := .of_freshPorts s.discardWork_effect.1

/-! ## Frames that are taken -/

/-- A reload starts no counter: it sets one that runs (R106). -/
theorem leasesStop_reloadLease : LeasesStop s (s.reloadLease p) := by
  have reloads : LeasesStop s (s.modPort p fun c => { c with lease := c.lease.map fun _ => (s.session p).leasePeriod }) :=
    .modPort s p fun c => by rw [Option.isSome_map]; exact id
  exact reloads.trans (.of_ports rfl)

theorem leasesStop_takeNop (tag : Byte) : LeasesStop s (s.takeNop p tag) := by
  refine (s.leasesStop_reloadLease p).trans ?_
  unfold takeNop
  dsimp only
  split <;> exact leasesStop_placeReply _ p _ _ _

theorem leasesStop_takeRpt (tag : Byte) : LeasesStop s (s.takeRpt p tag) := by
  refine (s.leasesStop_reloadLease p).trans ?_
  unfold takeRpt
  dsimp only
  split
  · exact leasesStop_placeReply _ p _ _ _
  · split <;> exact leasesStop_placeReply _ p _ _ _

theorem leasesStop_takeNtf (tag : Byte) : LeasesStop s (s.takeNtf p tag) := by
  refine (s.leasesStop_reloadLease p).trans ?_
  unfold takeNtf
  dsimp only
  split
  · exact leasesStop_placeReply _ p _ _ _
  · split
    · exact leasesStop_placeReply _ p _ _ _
    · exact (LeasesStop.modPort _ p).trans (leasesStop_placeReply _ p _ _ _)

theorem leasesStop_takeRequest (r : Request) : LeasesStop s (s.takeRequest p r) := by
  refine (s.leasesStop_reloadLease p).trans ?_
  unfold takeRequest
  dsimp only
  split
  · exact leasesStop_placeReply _ p _ _ _
  · exact .modPort _ p

end State

/-! ## The rows -/

theorem csnRise_leasesStop {s : State} {p : Port} {mosi : List Byte} {act : State → State}
    (h : ∀ t, LeasesStop t (act t)) : Answers (LeasesStop s) (csnRise s p mosi act) := by
  rcases csnRise_next s p mosi act with he | ⟨t, ⟨x, _, _, rfl⟩, he⟩
  · rw [he]; exact .next (.refl s)
  · rw [he]; exact .next ((LeasesStop.modPort s p).trans (h _))

theorem dueStep_leasesStop (s : State) (d : Due) : Answers (LeasesStop s) (dueStep s d) := by
  have erased : LeasesStop s { s with due := s.due.erase d } := .of_ports rfl
  exact LeasesStop.guarded (erased.trans (State.leasesStop_runDue _ d))

/-- Nothing that happens outside the core's work items, the tick and the starts makes a lease counter run. -/
theorem exec_leasesStop {c : Instr} (hc : outsideCore c = true) (s : State) : Answers (LeasesStop s) (exec c s) := by
  have stays : Answers (LeasesStop s) (.next s) := .next (.refl s)
  cases c with
  | nop p mosi =>
    show Answers _ (execNop p mosi s)
    unfold execNop
    split
    · exact csnRise_leasesStop fun t => t.leasesStop_takeNop p _
    · exact stays
  | rpt p mosi =>
    show Answers _ (execRpt p mosi s)
    unfold execRpt
    split
    · exact csnRise_leasesStop fun t => t.leasesStop_takeRpt p _
    · exact stays
  | ntf p mosi =>
    show Answers _ (execNtf p mosi s)
    unfold execNtf
    split
    · exact csnRise_leasesStop fun t => t.leasesStop_takeNtf p _
    · exact stays
  | fill p mosi =>
    show Answers _ (execFill p mosi s)
    unfold execFill
    split
    · exact csnRise_leasesStop .refl
    · exact csnRise_leasesStop .refl
    · exact stays
  | csnFall p =>
    show Answers _ (execCsnFall p s)
    unfold execCsnFall
    split
    · exact stays
    · exact .next (.modPort s p)
  | requestTaken p mosi =>
    show Answers _ (execRequestTaken p mosi s)
    unfold execRequestTaken
    split
    · exact csnRise_leasesStop fun t => t.leasesStop_takeRequest p _
    · exact stays
  | frameError p mosi =>
    show Answers _ (execFrameError p mosi s)
    unfold execFrameError
    split
    · exact csnRise_leasesStop fun t => t.leasesStop_placeReply p _ _ _
    · exact stays
  | unknown p mosi =>
    show Answers _ (execUnknown p mosi s)
    unfold execUnknown
    split
    · exact csnRise_leasesStop fun t => t.leasesStop_placeReply p _ _ _
    · exact stays
  | pending p mosi =>
    show Answers _ (execPending p mosi s)
    unfold execPending
    split
    · exact stays
    · exact LeasesStop.guarded (.modPort s p)
  | notReady p mosi before =>
    show Answers _ (execNotReady p mosi before s)
    unfold execNotReady
    split
    · exact stays
    · split
      · exact .next (.modPort s p)
      · exact .next (.modPort s p)
      all_goals exact stays
  | replyPlaced p =>
    show Answers _ (execReplyPlaced p s)
    unfold execReplyPlaced
    split
    · exact stays
    · exact LeasesStop.guarded (s.leasesStop_deliverPosts.trans (State.leasesStop_placeAnswer _))
  | noticePost p =>
    show Answers _ (execNoticePost p s)
    unfold execNoticePost
    split
    · exact stays
    · have taken : LeasesStop s { s with transit := s.transit.eraseP fun x => x.1 == p } := .of_ports rfl
      exact LeasesStop.guarded (taken.trans (State.leasesStop_store _ p _))
  | sealEnd result =>
    show Answers _ (execSealEnd result s)
    unfold execSealEnd
    split
    · exact stays
    · rename_i w _
      split
      · split
        · exact stays
        · rename_i contents _
          have ended : LeasesStop s { s.setImageSlot w.slot
              { contents := contents, state := State.sealedState contents result } with sealing := none } := .of_ports rfl
          exact .next ((ended.trans (.modPort _ 0)).trans (State.leasesStop_placeReply _ 0 _ _ _))
      · exact stays
  | leaseExpiry p => exact dueStep_leasesStop s _
  | deadlineExpiry ticket => exact dueStep_leasesStop s _
  | lineAsserted g => exact dueStep_leasesStop s _
  | lineDeasserted g => exact dueStep_leasesStop s _
  | qualifyTimerExpiry g => exact dueStep_leasesStop s _
  | restoreTimerExpiry g => exact dueStep_leasesStop s _
  | auditTimerExpiry => exact dueStep_leasesStop s _
  | rstnLow =>
    show Answers _ (execRstnLow s)
    unfold execRstnLow State.rstnFalls
    dsimp only
    split
    · exact stays
    · split
      · exact .next ((LeasesStop.of_ports rfl).trans
          ((State.leasesStop_cutTransactions { s with rstn := .low }).trans (.of_ports rfl)))
      all_goals exact .next (.of_ports rfl)
  | rstnHigh =>
    show Answers _ (execRstnHigh s)
    unfold execRstnHigh State.rstnRises
    dsimp only
    split <;> exact .next (.of_ports rfl)
  | warmReset cut =>
    have discarded := (s.leasesStop_abortSeal cut).trans (State.leasesStop_discardWork _)
    exact LeasesStop.guarded (discarded.trans (.of_ports rfl))
  | powerOn => exact LeasesStop.guarded (s.leasesStop_discardWork.trans (.of_ports rfl))
  | powerInterruption cut =>
    show Answers _ (execPowerInterruption cut s)
    unfold execPowerInterruption
    split
    · exact stays
    · exact .next (((s.leasesStop_abortSeal cut).trans (State.leasesStop_cutTransactions _)).trans (.of_ports rfl))
  | _ => exact absurd hc Bool.false_ne_true

/-! ## Steps that leave the holdings -/

/-- From `s` to `t` the holdings, the sessions and the window stay, and no lease counter starts. -/
structure KeepsHoldings (s t : State) : Prop where
  gains : GainsNothing s t
  audit : KeepsAudit s t
  sessions : t.sessions = s.sessions

namespace KeepsHoldings

variable {s t u : State}

theorem trans (h : KeepsHoldings s t) (k : KeepsHoldings t u) : KeepsHoldings s u :=
  ⟨h.gains.trans k.gains, h.audit.trans k.audit, k.sessions.trans h.sessions⟩

theorem of_core (h : KeepsCore s t) (hl : LeasesStop s t) : KeepsHoldings s t := by
  have core {α : Type} (f : State → α) : f t.core = f s.core := congrArg f h
  exact ⟨.of_tables (core State.grants) (core State.tokens) (core State.waits) (core State.watches) hl,
    .of_tables (core State.grants) (core State.tokens) (core fun x => x.window.isOpen), core State.sessions⟩

end KeepsHoldings

theorem HoldingLaws.keeps {s t : State} (h : HoldingLaws s) (k : KeepsHoldings s t) : HoldingLaws t :=
  h.gains_attached (k.gains.mono fun _ => False.elim) k.audit k.sessions

/-- A work item begins with the holdings of the state before. -/
theorem State.keepsHoldings_ready (s : State) : KeepsHoldings s s.ready := .of_core s.core_ready s.leasesStop_ready

theorem State.keepsHoldings_took (s : State) (p : Port) : KeepsHoldings s (s.took p) :=
  .of_core (s.core_took p) (s.leasesStop_took p)

/-- A tick lowers counters; it ends no holding and leaves the window open or closed (R105, R137). -/
theorem State.keepsHoldings_tickAll (s : State) (a b : Level) : KeepsHoldings s (s.tickAll a b) := by
  have hleases := s.leasesStop_tickAll a b
  have settled : KeepsHoldings s s.settle := .of_core s.core_settle s.leasesStop_settle
  rw [tickAll_eq] at hleases ⊢
  generalize s.settle = t at settled hleases ⊢
  have hslot (w : WaitNo) : (t.waits.map WaitSlot.lowered)[w] = (t.waitSlot w).lowered := Vector.getElem_map _ w.isLt
  obtain ⟨gains, audit, sessions⟩ := settled
  refine ⟨⟨gains.grant, gains.token, fun w r hr => ?_, gains.watch, fun p hp => .inl (hleases p hp)⟩,
    audit.trans (.of_tables rfl rfl ?_), sessions⟩
  · obtain ⟨x, hx, hr⟩ := Option.map_eq_some_iff.1 ((congrArg WaitSlot.record (hslot w)).symm.trans hr)
    rw [← hr]; exact gains.record w x hx
  · show t.window.lowered.isOpen = _
    cases hopen : t.window.isOpen with
    | true => rw [AuditWindow.lowered_open hopen]
    | false => rw [AuditWindow.lowered_closed hopen, hopen]

end Sys2Proof.Machine
end

section
/-! Proofs, part 40: every step keeps what a port may hold by its session (L8) and the audit window open exactly while an
AUDIT holding exists (L10). -/

namespace Sys2Proof.Machine

namespace KeepsHoldings

variable {s t : State}

/-- Steps that leave the tables of holdings, the sessions, the window and the port controllers. -/
theorem of_tables (hg : t.grants = s.grants) (ht : t.tokens = s.tokens) (hw : t.waits = s.waits)
    (hwatch : t.watches = s.watches) (hs : t.sessions = s.sessions) (hwin : t.window = s.window)
    (hp : t.ports = s.ports) : KeepsHoldings s t :=
  ⟨.of_tables hg ht hw hwatch (LeasesStop.of_ports hp), .of_tables hg ht (by rw [hwin]), hs⟩

end KeepsHoldings

/-- AUDIT holdings of every port but `p` stay. -/
theorem State.holdsAudit_others {s t : State} {p q : Port} (hq : q ≠ p)
    (hg : ∀ i g, s.grant? i = some g → g.port ≠ p → t.grant? i = some g)
    (ht : ∀ n, s.token n = .audit q → t.token n = .audit q) (h : s.holdsAudit q = true) : t.holdsAudit q = true := by
  rw [holdsAudit_iff] at h ⊢
  rcases h with ⟨i, g, hgi, hport, ha⟩ | ⟨n, hn⟩
  · exact .inl ⟨i, g, hg i g hgi (hport ▸ hq), hport, ha⟩
  · exact .inr ⟨n, ht n hn⟩

namespace HoldingLaws

variable {s : State} {p : Port}

/-- The consequence for the window of what an ATTACHED port did with its own holdings (R139). -/
theorem closeIfDone_own {t : State} (h : HoldingLaws s) (hp : (s.session p).state = .attached)
    (k : GainsOnly (fun q => (s.session q).state = .attached) s t) (hs : t.sessions = s.sessions)
    (hw : t.window = s.window) (hothers : ∀ q, q ≠ p → s.holdsAudit q = true → t.holdsAudit q = true) :
    HoldingLaws t.closeIfDone := by
  refine h.closeIfDone (h.holds.gains_attached k hs) (fun q hq => ?_) k.anyAudit hw
  have hsession : (t.session q).state = (s.session q).state := by simp only [State.session, hs]
  rw [hsession] at hq
  refine hothers q ?_ (h.recovering q hq)
  rintro rfl
  rw [hp] at hq; cases hq

/-! ## Lapses and detachments -/

/-- What frees all a port holds, takes its session to a state without holdings and stops its counter keeps the laws. -/
theorem releases {t w : State} {x : Session} (h : HoldingLaws t) (hr : Releases t w p)
    (hs : w.sessions = t.sessions.set p x) (hx : x.state ≠ .recovering) (hl : (w.port p).lease = none) :
    HoldingLaws w := by
  obtain ⟨hgrant, _, hwait, _, htoken, hwatch, _⟩ := id hr.frees
  obtain ⟨_, _, hports⟩ := hr.touches
  have hsession (q : Port) : w.session q = if q = p then x else t.session q := by
    rw [State.session, hs]; exact State.set_get _ _ _ _
  have gains : GainsNothing t w := by
    refine ⟨fun i g hg => .inl ⟨g, ?_, rfl, rfl⟩, fun n => ?_, fun i r hr => .inl ⟨r, ?_, rfl⟩, fun q hq => .inl fun hz => hq ?_,
      fun q hq => .inl ?_⟩
    · rw [State.grant?, hgrant i] at hg
      split at hg
      · cases hg
      · exact hg
    · rw [htoken n]
      split
      · exact .inl rfl
      · exact .inr (.inl rfl)
    · rw [State.record?, hwait i] at hr
      split at hr
      · cases hr
      · exact hr
    · rw [hwatch q, hz]
      split
      · rfl
      · exact BitVec.zero_and
    · by_cases hqp : q = p
      · rw [hqp, hl] at hq; cases hq
      · rwa [← hports q fun e => hqp (Option.some.inj e).symm]
  refine h.closing (h.holds.gains gains (fun _ => False.elim) fun q => ?_) (fun q hq => ?_) gains.anyAudit hr.window
  · by_cases hqp : q = p
    · rw [hqp]; exact .inr (.inr ⟨hr.frees.holdsNothing, hl⟩)
    · exact .inl (by rw [hsession q, if_neg hqp])
  · rw [hsession q] at hq
    by_cases hqp : q = p
    · rw [if_pos hqp] at hq; exact absurd hq hx
    · rw [if_neg hqp] at hq
      refine State.holdsAudit_others hqp (fun i g hg hne => ?_) (fun n hn => ?_) (h.recovering q hq)
      · have hkept : ¬ holdsGrant t p i = true := fun hi => by
          obtain ⟨y, hy, hport⟩ := State.holdsGrant_iff.1 hi
          rw [hg] at hy; cases hy; exact hne hport
        rw [State.grant?, hgrant i, if_neg hkept]; exact hg
      · rw [htoken n, if_neg]
        · exact hn
        · rw [hn]
          rintro (he | he)
          · cases he
          · cases he; exact hqp rfl

theorem lapseSession (h : HoldingLaws s) (ha : AgeLaw s) (p : Port) (cause : LapseCause) :
    HoldingLaws (s.lapseSession p cause) := by
  obtain ⟨hreleases, _, hsessions, hport⟩ := State.lapsed_effect ha p cause
  have lapsed : HoldingLaws (s.lapsed p cause) :=
    h.releases hreleases hsessions SessionState.noConfusion (by rw [hport])
  exact lapsed.servicePass (s.familiesOfHoldings p)

theorem detachSession (h : HoldingLaws s) (ha : AgeLaw s) (p : Port) : HoldingLaws (s.detachSession p) := by
  obtain ⟨hreleases, _, hsessions, hport⟩ := State.detached_effect ha p
  have detached : HoldingLaws (s.detached p) :=
    h.releases hreleases hsessions SessionState.noConfusion (by rw [hport])
  exact detached.servicePass (s.familiesOfHoldings p)

/-! ## Requests -/

/-- An accepted ATT makes its port ATTACHED, which may hold anything (R101, R104). -/
theorem answerAtt (h : HoldingLaws s) (p : Port) (lease : Word) : HoldingLaws (s.answerAtt p lease) := by
  unfold State.answerAtt
  dsimp only
  split
  · exact h.refuse p _ _
  · refine HoldingLaws.replyWith ?_ p _ _
    have hsession (q : Port) : ((s.attach p lease).session q).state =
        if q = p then .attached else (s.session q).state := by
      refine (congrArg Session.state (s.session_setSession p q _)).trans ?_
      split <;> rfl
    have gains : GainsOnly (· = p) s (s.attach p lease) := by
      have rest : GainsOnly (· = p) s { s.attach p lease with ports := s.ports } := .of_tables rfl rfl rfl rfl fun _ => id
      refine ⟨rest.grant, rest.token, rest.record, rest.watch, fun q hq => ?_⟩
      by_cases hqp : q = p
      · exact .inr hqp
      · rw [State.attach, State.port_modPort, if_neg hqp] at hq; exact .inl hq
    refine h.gains gains (.of_tables rfl rfl rfl) (fun q hq => by rw [hsession q, if_pos hq]) fun q => ?_
    rw [hsession q]
    split
    · exact .inr rfl
    · exact .inl rfl

theorem queueRsv (h : HoldingLaws s) (hp : (s.session p).state = .attached) (tag pool : Byte) (n : PoolNo)
    (floor max wait : Word) : HoldingLaws (s.queueRsv p tag pool n floor max wait) := by
  unfold State.queueRsv
  split
  · exact h.refuse p _ _
  · rename_i w _
    split
    · exact h.refuse p _ _
    · have queued : HoldingLaws (s.queueRecord w (s.recordOf p tag n floor max wait)) :=
        h.gains_attached (State.gains_queueRecord hp w) (.of_tables rfl rfl rfl) rfl
      refine HoldingLaws.replyWith ?_ p _ _
      unfold State.markIfFull
      split
      · exact queued.keeps (.of_tables rfl rfl rfl rfl rfl rfl rfl)
      · exact queued

theorem decideRsv (h : HoldingLaws s) (hp : (s.session p).state = .attached) (tag pool : Byte) (n : PoolNo)
    (floor max wait : Word) : HoldingLaws (s.decideRsv p tag pool n floor max wait) := by
  have queued := h.queueRsv hp tag pool n floor max wait
  unfold State.decideRsv
  dsimp only
  split
  · rename_i i hi
    split
    · refine HoldingLaws.replyWith (h.gains_attached (State.gains_createGrant hp rfl)
        (State.keepsAudit_createGrant (State.freeGrantSlot_eq_some.1 hi).1) ?_) p _ _
      rw [State.createGrant_frame]
    · split
      · exact h.refuse p _ _
      · exact queued
  · split
    · exact h.refuse p _ _
    · exact queued

theorem answerRsv (h : HoldingLaws s) (hp : (s.session p).state = .attached) (tag pool : Byte) (floor max wait : Word) :
    HoldingLaws (s.answerRsv p tag pool floor max wait) := by
  unfold State.answerRsv
  dsimp only
  split
  · exact h.refuse p _ _
  · split
    · exact h.refuse p _ _
    · split
      · exact h.refuse p _ _
      · exact h.decideRsv hp tag pool _ floor max wait

theorem answerAdj (h : HoldingLaws s) (p : Port) (handle units : Word) : HoldingLaws (s.answerAdj p handle units) := by
  unfold State.answerAdj
  dsimp only
  split
  · exact h.refuse p _ _
  · split
    · exact h.refuse p _ _
    · rename_i i g hown
      obtain ⟨⟨hg, _, _⟩, _⟩ := State.ownGrant_eq_some.1 hown
      split
      · exact h.refuse p _ _
      · obtain ⟨growsGains, growsAudit⟩ := State.gains_growGrant hg units.toNat
        obtain ⟨shrinksGains, shrinksAudit⟩ := State.gains_shrinkGrant hg units.toNat
        unfold State.adjustGrant
        split
        · exact h.replyWith p _ _
        · split
          · refine HoldingLaws.replyWith (HoldingLaws.servicePass (h.gains_attached shrinksGains shrinksAudit ?_) _) p _ _
            rw [State.shrinkGrant_frame]
          · split
            · exact h.refuse p _ _
            · refine HoldingLaws.replyWith (h.gains_attached growsGains growsAudit ?_) p _ _
              rw [State.growGrant_frame]

theorem answerRel (h : HoldingLaws s) (hp : (s.session p).state = .attached) (handle : Word) :
    HoldingLaws (s.answerRel p handle) := by
  unfold State.answerRel
  split
  · exact h.refuse p _ _
  · rename_i i g hown
    obtain ⟨⟨hg, _, _⟩, hport⟩ := State.ownGrant_eq_some.1 hown
    have freed := OnlyFrees.freeGrant s i
    have closed : HoldingLaws (s.freeGrant i).closeIfDone := by
      refine h.closeIfDone_own hp (s.gains_freeGrant i) freed.sessions freed.window fun q hq => ?_
      refine State.holdsAudit_others hq (fun j x hx hne => ?_) fun n hn => ?_
      · rw [State.grant?_freeGrant, if_neg]
        · exact hx
        · rintro rfl
          rw [hg] at hx; cases hx; exact hne hport
      · rw [State.freeGrant_live hg]; exact hn
    exact (closed.servicePass _).replyWith p _ _

/-- A record ends, whatever is told of it (R59, R60). -/
theorem endRecord (h : HoldingLaws s) (w : WaitNo) (r : WaitRecord) {told : State → State}
    (ht : ∀ t, HoldingLaws t → HoldingLaws (told t)) : HoldingLaws (s.endRecord w r told) := by
  have ended := ht _ (h.gains_attached (s.gains_removeRecord w) (s.keepsAudit_removeRecord w) (s.sessions_removeRecord w))
  unfold State.endRecord
  dsimp only
  split
  · exact ended.servicePass _
  · exact ended

theorem answerCan (h : HoldingLaws s) (p : Port) (ticket : Word) : HoldingLaws (s.answerCan p ticket) := by
  unfold State.answerCan
  split
  · exact h.refuse p _ _
  · exact (h.endRecord _ _ fun _ ht => ht).replyWith p _ _

theorem answerCnf (h : HoldingLaws s) (hp : (s.session p).state = .attached) (handle : Word) :
    HoldingLaws (s.answerCnf p handle) := by
  unfold State.answerCnf
  dsimp only
  split
  · exact h.refuse p _ _
  · rename_i i g hown
    obtain ⟨⟨hg, _, _⟩, hport⟩ := State.ownGrant_eq_some.1 hown
    split
    · exact h.refuse p _ _
    · refine HoldingLaws.replyWith (h.closeIfDone_own hp (State.gains_confirmedGrant (hport ▸ hp)) rfl rfl fun q hq => ?_) p _ _
      refine State.holdsAudit_others hq (fun j x hx hne => ?_) fun n hn => hn
      rw [State.grant?_putGrant, if_neg]
      · exact hx
      · rintro rfl
        rw [hg] at hx; cases hx; exact hne hport

/-- A claim takes FREE tokens alone (R69, R70). -/
theorem answerClm (h : HoldingLaws s) (hp : (s.session p).state = .attached) (mask : Word) (mode watch : Byte) :
    HoldingLaws (s.answerClm p mask mode watch) := by
  unfold State.answerClm
  split
  · exact h.refuse p _ _
  · rw [State.claim_eq]
    refine HoldingLaws.replyWith (h.gains_attached ((State.gains_setTokens_held s hp _).trans (State.gains_setWatch _ hp _))
      (.of_holdings (fun i g hg ha => ⟨g, hg, rfl, ha⟩) (fun n q hn => ?_) rfl) rfl) p _ _
    refine (s.token_setTokens _ _ n).trans ?_
    rw [if_neg]
    · exact hn
    · intro hm
      obtain ⟨_, hfree, _⟩ := State.names_claimedMask.1 hm
      rw [hn] at hfree; cases hfree

theorem answerDrp (h : HoldingLaws s) (hp : (s.session p).state = .attached) (mask : Word) :
    HoldingLaws (s.answerDrp p mask) := by
  unfold State.answerDrp
  split
  · exact h.refuse p _ _
  · dsimp only
    generalize hm : mask &&& (s.heldMask p ||| s.auditMask p) = m
    have freed := OnlyFrees.freeTokens s m
    obtain ⟨htoken, _, _, hframe⟩ := s.freeTokens_effect m
    refine HoldingLaws.replyWith (h.closeIfDone_own hp (s.gains_freeTokens m) freed.sessions freed.window fun q hq => ?_) p _ _
    refine State.holdsAudit_others hq (fun i g hg _ => by rw [hframe]; exact hg) fun n hn => ?_
    rw [htoken n, if_neg]
    · exact hn
    · rw [← hm, names_and, names_or, Bool.and_eq_true, Bool.or_eq_true, State.names_heldMask, State.names_auditMask, hn]
      rintro ⟨_, he | he⟩
      · cases he
      · cases he; exact hq rfl

theorem answerCnt (h : HoldingLaws s) (hp : (s.session p).state = .attached) (mask : Word) :
    HoldingLaws (s.answerCnt p mask) := by
  unfold State.answerCnt
  split
  · exact h.refuse p _ _
  · refine HoldingLaws.replyWith (h.closeIfDone_own hp
      ((State.gains_setTokens_held s hp _).trans (State.gains_setWatch _ hp _)) rfl rfl fun q hq => ?_) p _ _
    refine State.holdsAudit_others hq (fun i g hg _ => hg) fun n hn => ?_
    refine (s.token_setTokens _ _ n).trans ?_
    rw [if_neg]
    · exact hn
    · rw [names_and, Bool.and_eq_true, State.names_auditMask, hn]
      rintro ⟨_, he⟩
      cases he; exact hq rfl

theorem answerUwt (h : HoldingLaws s) (hp : (s.session p).state = .attached) (mask : Word) :
    HoldingLaws (s.answerUwt p mask) := by
  unfold State.answerUwt
  split
  · exact h.refuse p _ _
  · exact (h.gains_attached (s.gains_setWatch hp _) (.of_tables rfl rfl rfl) rfl).replyWith p _ _

theorem answerScp (h : HoldingLaws s) (p : Port) (pool : Byte) (nominal derated : Word) :
    HoldingLaws (s.answerScp p pool nominal derated) := by
  have changed (n : PoolNo) : HoldingLaws (s.changeCapacity n nominal.toNat derated.toNat) := by
    have recorded : HoldingLaws (s.recordCapacity n nominal.toNat derated.toNat) :=
      h.keeps (.of_tables rfl rfl rfl rfl rfl rfl rfl)
    unfold State.changeCapacity
    dsimp only
    rw [← State.recordCapacity]
    split
    · exact recorded.servicePass _
    · split
      · split
        · exact recorded
        · exact recorded.detachBare_closeIfDone (.shed _ n)
      · exact recorded
  unfold State.answerScp
  dsimp only
  split
  · exact h.refuse p _ _
  · split
    · exact h.refuse p _ _
    · split
      · exact h.refuse p _ _
      · exact (changed _).replyWith p _ _

theorem answerRvk (h : HoldingLaws s) (p : Port) (handle : Word) : HoldingLaws (s.answerRvk p handle) := by
  unfold State.answerRvk
  dsimp only
  split
  · exact h.refuse p _ _
  · split
    · exact h.refuse p _ _
    · rename_i i g _
      have freed := OnlyFrees.freeGrant s i
      have closed : HoldingLaws ((s.freeGrant i).tellRevoked p g handle.toNat).closeIfDone := by
        unfold State.tellRevoked
        split
        · exact h.detachBare_closeIfDone freed
        · exact h.detachBare_closeIfDone (freed.trans (.post _ _ _))
      exact (closed.servicePass _).replyWith p _ _

theorem answerEvc (h : HoldingLaws s) (ha : AgeLaw s) (p : Port) (target : Byte) :
    HoldingLaws (s.answerEvc p target) := by
  unfold State.answerEvc
  dsimp only
  split
  · exact h.refuse p _ _
  · split
    · exact h.refuse p _ _
    · split
      · exact h.refuse p _ _
      · split
        · exact h.refuse p _ _
        · exact h.refuse p _ _
        · exact (h.lapseSession ha _ _).replyWith p _ _
        · exact (h.lapseSession ha _ _).replyWith p _ _

/-! ## Events -/

theorem takeLapse (h : HoldingLaws s) (ha : AgeLaw s) {t : State} (ht : s.takeLapse p = some t) : HoldingLaws t := by
  have taken (l : List HandedOn) : HoldingLaws (s.modPort p fun c => { c with handedOn := l }) :=
    h.keeps (.of_core rfl (.modPort s p))
  unfold State.takeLapse at ht
  split at ht
  · dsimp only at ht
    split at ht
    · cases ht; exact (taken _).lapseSession ha p _
    · cases ht; exact taken _
  · cases ht
  · cases ht

theorem takeExpiry (h : HoldingLaws s) (ticket : Nat) {t : State} (ht : s.takeExpiry ticket = some t) :
    HoldingLaws t := by
  have taken : HoldingLaws { s with expiryEvents := s.expiryEvents.erase ticket } :=
    h.keeps (.of_tables rfl rfl rfl rfl rfl rfl rfl)
  unfold State.takeExpiry at ht
  dsimp only at ht
  split at ht
  · split at ht
    · cases ht; exact taken
    · split at ht
      · cases ht
        exact taken.endRecord _ _ fun u hu => hu.keeps (.of_tables rfl rfl rfl rfl rfl rfl rfl)
      · cases ht; exact taken
  · cases ht

theorem takeSagEvent (h : HoldingLaws s) (e : SagEvent) {effect : State → State}
    (he : ∀ u, HoldingLaws u → HoldingLaws (effect u)) {t : State} (ht : s.takeSagEvent e effect = some t) :
    HoldingLaws t := by
  unfold State.takeSagEvent at ht
  split at ht
  · cases ht
    exact he _ (h.keeps (.of_tables rfl rfl rfl rfl rfl rfl rfl))
  · cases ht

theorem derate (h : HoldingLaws s) (g : SagGroup) : HoldingLaws (s.derate g) := by
  refine h.detachBare_closeIfDone (.foldl (fun t n => ?_) _ s)
  have derated : OnlyFrees t (t.modPool n fun q => { q with derateState := .derated }) :=
    ⟨.of_tables rfl rfl rfl rfl fun _ => id, rfl, rfl⟩
  exact derated.trans (.shed _ n)

theorem restore (h : HoldingLaws s) (g : SagGroup) : HoldingLaws (s.restore g) :=
  servicePass (foldl_keeps (fun _ _ ht => ht.keeps (.of_tables rfl rfl rfl rfl rfl rfl rfl)) _ h) _

/-- The end of the window leaves no AUDIT holding and no RECOVERING port (R140). -/
theorem auditReclaimed {t w : State} (h : HoldingLaws t) (hw : ReclaimsAudit t w) : HoldingLaws w := by
  have hbare (p : Port) : w.holdsAudit p = false := by
    have hany := hw.anyAudit
    rw [State.anyAudit, List.any_eq_false] at hany
    exact Bool.eq_false_iff.2 (hany p (List.mem_finRange p))
  have hport (p : Port) : w.port p = t.port p := by rw [hw.frame]; rfl
  have gains : GainsNothing t w := by
    refine ⟨fun i g hg => .inl ⟨g, ?_, rfl, rfl⟩, fun n => ?_, fun v r hr => .inl ⟨r, ?_, rfl⟩, fun q hq => .inl fun hz => hq ?_,
      fun q hq => .inl (by rwa [← hport q])⟩
    · rw [State.grant?, hw.grantSlot i] at hg
      split at hg
      · cases hg
      · exact hg
    · rw [hw.token n]
      split
      · exact .inl rfl
      · exact .inr (.inl rfl)
    · rw [hw.frame] at hr; exact hr
    · rw [hw.watch q, hz]; exact BitVec.zero_and
  have before : HoldsBySession { w with sessions := t.sessions } :=
    h.holds.gains_attached ⟨fun i g hg => (gains.grant i g hg).imp_right fun ⟨hf, _⟩ => hf.elim, fun n =>
      (gains.token n).imp_right fun hn => hn.imp_right fun ⟨_, hf, _⟩ => hf.elim, fun v r hr => (gains.record v r hr).imp_right False.elim,
      fun q hq => (gains.watch q hq).imp_right False.elim, fun q hq => (gains.lease q hq).imp_right False.elim⟩ rfl
  refine ⟨h.holds.gains gains (fun _ => False.elim) fun p => ?_, fun p hp => ?_, ?_⟩
  · rw [SessionMoves, hw.session p]
    split
    · rename_i hrec
      exact .inr (.inr (before.nothing_of_bare hrec (hbare p)))
    · exact .inl rfl
  · rw [hw.session p] at hp
    split at hp
    · cases hp
    · rename_i hnot; exact absurd hp hnot
  · rw [WindowLaw, hw.anyAudit, hw.frame]; rfl

theorem takeAuditEnd (h : HoldingLaws s) (ha : AgeLaw s) {t : State} (ht : s.takeAuditEnd = some t) : HoldingLaws t := by
  have taken : HoldingLaws { s with auditEndMade := false } := h.keeps (.of_tables rfl rfl rfl rfl rfl rfl rfl)
  unfold State.takeAuditEnd at ht
  dsimp only at ht
  split at ht
  · cases ht
    split
    · rw [State.reclaimAudit_eq]
      exact (taken.auditReclaimed (State.reclaimsAudit_auditReclaimed ha)).servicePass _
    · exact taken
  · cases ht

/-! ## Starts -/

/-- A warm start makes the sessions and the window from the AUDIT holdings, which are all that is left (R116, R134, R137). -/
theorem warmTables (s : State) : HoldingLaws s.warmTables := by
  have hsession (p : Port) : (s.warmTables.session p).state =
      if s.warmTables.holdsAudit p then .recovering else .detached := by rw [State.session_warmTables]
  have hrecovering {p : Port} (hp : s.warmTables.holdsAudit p = true) : (s.warmTables.session p).state = .recovering := by
    rw [hsession p, if_pos hp]
  refine ⟨⟨fun i g hg => .inr ?_, fun n p hn => ?_, fun n p hn => .inr ?_, fun w r hr => ?_, fun p hp => ?_, fun p hp => ?_⟩,
    fun p hp => ?_, ?_⟩
  · have haudit : g.state = .audit := by
      obtain ⟨x, _, rfl⟩ := Option.map_eq_some_iff.1
        ((congrArg GrantSlot.grant (s.grantSlot_warmTables i)).symm.trans hg)
      rfl
    exact ⟨hrecovering (State.holdsAudit_iff.2 (.inl ⟨i, g, hg, rfl, haudit⟩)), haudit⟩
  · rw [State.token_warmTables] at hn
    split at hn
    · cases hn
    · rename_i hnot
      exact absurd hn (hnot p)
  · exact hrecovering (State.holdsAudit_iff.2 (.inr ⟨n, hn⟩))
  · rw [State.record?, State.waitSlot_warmTables] at hr; cases hr
  · exact absurd (Vector.getElem_replicate _) hp
  · rw [s.freshPorts_warmTables p] at hp; cases hp
  · rw [hsession p] at hp
    split at hp
    · rename_i ha; exact ha
    · cases hp
  · rw [WindowLaw, State.window_warmTables]
    cases s.warmTables.anyAudit <;> rfl

/-- Nothing is held after a cold start. -/
theorem of_coldTables {x : Profile} (h : ColdTables s x) (hports : ∀ p, (s.port p).lease = none) : HoldingLaws s := by
  refine (h.session hports).holdingLaws ?_
  obtain ⟨_, _, _, _, _, _, _, _, _, hwindow, _⟩ := id h
  rw [WindowLaw, hwindow, h.anyAudit_false]

theorem coldTables (s : State) (kind : StartKind) (x : Profile) : HoldingLaws (s.coldTables kind x) :=
  of_coldTables (s.coldTables_cold kind x) fun p => by
    obtain ⟨hfresh, _⟩ := s.discardWork_effect
    have hport : (s.coldTables kind x).port p = s.discardWork.port p := rfl
    rw [hport, hfresh p]

end HoldingLaws

/-! ## Requests that leave the port controllers -/

namespace State

variable (s : State) (p : Port)

theorem ports_answerQgr (handle : Word) : (s.answerQgr p handle).ports = s.ports := by
  unfold answerQgr
  split <;> rfl

theorem ports_answerQpl (pool : Byte) : (s.answerQpl p pool).ports = s.ports := by
  unfold answerQpl
  split <;> rfl

theorem ports_inStore (c : Command) {effect : State → State} (h : ∀ t, (effect t).ports = t.ports) :
    (s.inStore p c effect).ports = s.ports := by
  unfold inStore
  split
  · exact h s
  · rfl

theorem ports_answerSrd (slot block : Byte) : (s.answerSrd p slot block).ports = s.ports := by
  unfold answerSrd
  split
  · rfl
  · split <;> rfl

theorem ports_answerStg (block : Byte) (data : List Byte) : (s.answerStg p block data).ports = s.ports := by
  unfold answerStg
  split <;> rfl

theorem ports_answerChk : (s.answerChk p).ports = s.ports := by
  unfold answerChk
  split <;> rfl

theorem ports_answerSel : (s.answerSel p).ports = s.ports := by
  unfold answerSel
  split
  · rfl
  · split <;> rfl

/-- An accepted RSR cuts transactions and starts no lease counter (R195). -/
theorem leasesStop_answerRsr : LeasesStop s (s.answerRsr p) := by
  unfold answerRsr
  split
  · exact .of_ports rfl
  · exact s.leasesStop_cutTransactions.trans (.of_ports rfl)

end State

namespace HoldingLaws

variable {s : State} {p : Port}

/-! ## Every step -/

/-- A core request keeps the laws if its effect does, for a requester that the session check lets through. -/
theorem coreRequest (h : HoldingLaws s) (ha : AgeLaw s) {r : Request} {effect : State → State}
    (he : ∀ t, AgeLaw t → HoldingLaws t → t.sessionRefusal p r.command = none → HoldingLaws (effect t)) :
    Answers HoldingLaws (Machine.coreRequest s p r effect) := by
  cases htakes : s.ready.takes p r with
  | false => rw [coreRequest_not_taken htakes]; exact .next h
  | true =>
    have laws := (h.keeps s.keepsHoldings_ready).keeps (s.ready.keepsHoldings_took p)
    have age : AgeLaw (s.ready.took p) :=
      ha.congr (SameTables.of_keepsCore ((s.ready.core_took p).trans s.core_ready)).grants
    rw [coreRequest_taken ⟨htakes, rfl⟩]
    refine .next ?_
    split
    · exact laws.refuse p _ _
    · rename_i hpass; exact he _ age laws hpass

/-- A request that only an ATTACHED port may make. -/
theorem coreRequest_attached (h : HoldingLaws s) (ha : AgeLaw s) {r : Request} {effect : State → State}
    (hany : anySession r.command = false) (hcom : inCommissioning r.command = false)
    (he : ∀ t, AgeLaw t → HoldingLaws t → (t.session p).state = .attached → HoldingLaws (effect t)) :
    Answers HoldingLaws (Machine.coreRequest s p r effect) := by
  refine h.coreRequest ha fun t hage ht hpass => he t hage ht ?_
  simp only [State.sessionRefusal, hany, hcom, Bool.false_eq_true, if_false] at hpass
  split at hpass
  · cases hpass
  · split at hpass
    · assumption
    all_goals cases hpass

/-- A request that leaves the core's tables and the lease counters. -/
theorem coreQuery (h : HoldingLaws s) (ha : AgeLaw s) {r : Request} {effect : State → State}
    (he : ∀ t, KeepsCore t (effect t)) (hl : ∀ t, LeasesStop t (effect t)) :
    Answers HoldingLaws (Machine.coreRequest s p r effect) :=
  h.coreRequest ha fun t _ ht _ => ht.keeps (.of_core (he t) (hl t))

theorem coreEvent (h : HoldingLaws s) (ha : AgeLaw s) {event : State → Option State}
    (he : ∀ t u, AgeLaw t → HoldingLaws t → event t = some u → HoldingLaws u) :
    Answers HoldingLaws (Machine.coreEvent s event) := by
  rcases coreEvent_next s event with hr | ⟨t, u, ⟨_, rfl⟩, hu, hr⟩
  · rw [hr]; exact .next h
  · have age : AgeLaw s.ready := ha.congr (SameTables.of_keepsCore s.core_ready).grants
    rw [hr]; exact .next (he _ u age (h.keeps s.keepsHoldings_ready) hu)

/-- Every row of the table keeps the laws. -/
theorem exec (h : HoldingLaws s) (ha : AgeLaw s) (c : Instr) : Answers HoldingLaws (exec c s) := by
  cases hc : outsideCore c with
  | true =>
    exact fun t ht => h.keeps (.of_core (exec_outsideCore hc s t ht) (exec_leasesStop hc s t ht))
  | false =>
    cases c with
    | att p tag lease => exact h.coreRequest ha fun _ _ ht _ => ht.answerAtt p lease
    | det p tag => exact h.coreRequest ha fun _ hage ht _ => (ht.detachSession hage p).replyWith p _ _
    | rsv p tag pool floor max wait =>
      exact h.coreRequest_attached ha rfl rfl fun _ _ ht hp => ht.answerRsv hp tag pool floor max wait
    | adj p tag handle units => exact h.coreRequest ha fun _ _ ht _ => ht.answerAdj p handle units
    | rel p tag handle => exact h.coreRequest_attached ha rfl rfl fun _ _ ht hp => ht.answerRel hp handle
    | can p tag ticket => exact h.coreRequest ha fun _ _ ht _ => ht.answerCan p ticket
    | cnf p tag handle => exact h.coreRequest_attached ha rfl rfl fun _ _ ht hp => ht.answerCnf hp handle
    | qgr p tag handle =>
      exact h.coreQuery ha (fun t => t.keepsCore_answerQgr p handle) fun t => .of_ports (t.ports_answerQgr p handle)
    | qpl p tag pool =>
      exact h.coreQuery ha (fun t => t.keepsCore_answerQpl p pool) fun t => .of_ports (t.ports_answerQpl p pool)
    | qpt p tag =>
      exact h.coreQuery ha (fun t => t.keepsCore_answerQpt p)
        fun t => (LeasesStop.modPort t p (f := fun c => { c with missed := false })).trans (.of_ports rfl)
    | qdv p tag => exact h.coreQuery ha (fun t => t.core_replyWith p _ _) fun _ => .of_ports rfl
    | clm p tag mask mode watch =>
      exact h.coreRequest_attached ha rfl rfl fun _ _ ht hp => ht.answerClm hp mask mode watch
    | drp p tag mask => exact h.coreRequest_attached ha rfl rfl fun _ _ ht hp => ht.answerDrp hp mask
    | cnt p tag mask => exact h.coreRequest_attached ha rfl rfl fun _ _ ht hp => ht.answerCnt hp mask
    | uwt p tag mask => exact h.coreRequest_attached ha rfl rfl fun _ _ ht hp => ht.answerUwt hp mask
    | scp p tag pool nominal derated => exact h.coreRequest ha fun _ _ ht _ => ht.answerScp p pool nominal derated
    | rvk p tag handle => exact h.coreRequest ha fun _ _ ht _ => ht.answerRvk p handle
    | evc p tag target => exact h.coreRequest ha fun _ hage ht _ => ht.answerEvc hage p target
    | rsr p tag => exact h.coreQuery ha (fun t => t.keepsCore_answerRsr p) fun t => t.leasesStop_answerRsr p
    | srd p tag slot block =>
      exact h.coreQuery ha (fun t => t.keepsCore_inStore p _ fun u => u.keepsCore_answerSrd p slot block)
        fun t => .of_ports (t.ports_inStore p _ fun u => u.ports_answerSrd p slot block)
    | stg p tag block data =>
      exact h.coreQuery ha (fun t => t.keepsCore_inStore p _ fun u => u.keepsCore_answerStg p block data)
        fun t => .of_ports (t.ports_inStore p _ fun u => u.ports_answerStg p block data)
    | chk p tag =>
      exact h.coreQuery ha (fun t => t.keepsCore_inStore p _ fun u => u.keepsCore_answerChk p)
        fun t => .of_ports (t.ports_inStore p _ fun u => u.ports_answerChk p)
    | sel p tag =>
      exact h.coreQuery ha (fun t => t.keepsCore_inStore p _ fun u => u.keepsCore_answerSel p)
        fun t => .of_ports (t.ports_inStore p _ fun u => u.ports_answerSel p)
    | lapse p => exact h.coreEvent ha fun _ _ hage ht hu => ht.takeLapse hage hu
    | expiryEvent ticket => exact h.coreEvent ha fun _ _ _ ht hu => ht.takeExpiry _ hu
    | derateEvent g => exact h.coreEvent ha fun _ _ _ ht hu => ht.takeSagEvent _ (fun _ hv => hv.derate g) hu
    | restoreEvent g => exact h.coreEvent ha fun _ _ _ ht hu => ht.takeSagEvent _ (fun _ hv => hv.restore g) hu
    | auditEnd => exact h.coreEvent ha fun _ _ hage ht hu => ht.takeAuditEnd hage hu
    | tick lines disturbed =>
      show Answers HoldingLaws (execTick lines disturbed s)
      unfold execTick
      split
      · have ticked := h.keeps (s.keepsHoldings_tickAll lines.a lines.b)
        obtain ⟨hframe, _⟩ := (s.tickAll lines.a lines.b).disturbed_frame disturbed
        exact .next (ticked.keeps (.of_core (State.keepsCore_disturbed _ _) (.of_ports (by rw [hframe]))))
      · exact .next h
    | warmStart disturbed =>
      show Answers HoldingLaws (execWarmStart disturbed s)
      unfold execWarmStart State.completeWarmStart
      dsimp only
      split
      · split
        · exact .next (warmTables _)
        · exact .next (coldTables _ _ _)
      · exact .next h
    | coldStart prog =>
      show Answers HoldingLaws (execColdStart prog s)
      unfold execColdStart
      split
      · exact .next (coldTables _ _ _)
      · exact .next h
    | _ => exact absurd hc Bool.false_ne_true.symm

theorem step (h : HoldingLaws s) (ha : AgeLaw s) : Answers HoldingLaws (step s) := by
  unfold Machine.step
  split
  · exact .next h
  · rename_i rest _
    have dequeued : HoldingLaws { s with pending := rest } := h.keeps (.of_tables rfl rfl rfl rfl rfl rfl rfl)
    exact dequeued.exec ha _

end HoldingLaws

/-- Settles O59: what every row adds to the holdings it gives to ATTACHED ports, and where AUDIT holdings go the consequences
for sessions and window are drawn before the row ends. -/
theorem everyStepKeepsSessionAndWindowLaws : Obligations.EveryStepKeepsSessionAndWindowLaws := by
  intro s t hstep hage hsession hwindow
  have laws : HoldingLaws t := (hsession.holdingLaws hwindow).step hage t hstep
  exact ⟨laws.sessionLaw, laws.window⟩

end Sys2Proof.Machine
end

section
/-! Proofs, part 41: the frames a port controller takes, and what it answers to them by itself. -/

namespace Sys2Proof

/-- The layout of every command reads back each operand where the payload carries it (R173). -/
theorem commandOf_payload (c : Command) : commandOf c.code c.payload = some c := by
  cases c with
  | clm mask mode watch =>
    show some (Command.clm (wordAt (wordBytes mask ++ [mode, watch]) 0) mode watch) = _
    rw [wordAt_wordBytes_append]
  | _ =>
    simp [commandOf, Command.code, Command.payload, wordAt_cons, wordAt_wordBytes, wordAt_wordBytes_append,
      wordAt_past_wordBytes]

/-- A code of the core is none of those that the port controller answers, and no FILL. -/
theorem Command.code_ne (c : Command) : c.code ≠ 0x01 ∧ c.code ≠ 0x02 ∧ c.code ≠ 0x03 ∧ c.code ≠ 0xFF := by
  cases c <;> simp [Command.code]

theorem frameOf_command (tag : Byte) (c : Command) : frameOf c.code tag c.payload = .request ⟨tag, c⟩ := by
  obtain ⟨hnop, hrpt, hntf, _⟩ := c.code_ne
  unfold frameOf
  rw [if_neg hnop, if_neg hrpt, if_neg hntf, commandOf_payload]

theorem frameLength_of_wellFormed {c : Command} (h : c.wellFormed) :
    frameLength c.code = some (c.payload.length + 3) := by
  cases c with
  | stg block data => exact frameLength_stg block data (eq_of_beq h)
  | _ => exact frameLength_code _ (by simp [Command.code])

/-- The frame a host sends for a request is examined as that request, whatever bytes follow (R160, R166). -/
theorem examine_requestFrame {r : Request} (h : r.command.wellFormed) (more : List Byte) :
    examine (r.frame ++ more) = .request r := by
  obtain ⟨_, _, _, hfill⟩ := r.command.code_ne
  exact (examine_frameBytes _ r.tag _ more hfill (frameLength_of_wellFormed h)).trans (frameOf_command r.tag r.command)

namespace Machine

section
variable {s t : State} {p : Port} {mosi : List Byte}

/-! ## The row a frame ends by -/

theorem exec_nop_of_rises {tag : Byte} (h : Rises s t p mosi) (hm : examine mosi = .nop tag) :
    exec (.nop p mosi) s = .next (t.takeNop p tag) := by
  show execNop p mosi s = _
  unfold execNop; rw [hm]; exact csnRise_of_rises h _

theorem exec_rpt_of_rises {tag : Byte} (h : Rises s t p mosi) (hm : examine mosi = .rpt tag) :
    exec (.rpt p mosi) s = .next (t.takeRpt p tag) := by
  show execRpt p mosi s = _
  unfold execRpt; rw [hm]; exact csnRise_of_rises h _

theorem exec_ntf_of_rises {tag : Byte} (h : Rises s t p mosi) (hm : examine mosi = .ntf tag) :
    exec (.ntf p mosi) s = .next (t.takeNtf p tag) := by
  show execNtf p mosi s = _
  unfold execNtf; rw [hm]; exact csnRise_of_rises h _

theorem exec_requestTaken_of_rises {r : Request} (h : Rises s t p mosi) (hm : examine mosi = .request r) :
    exec (.requestTaken p mosi) s = .next (t.takeRequest p r) := by
  show execRequestTaken p mosi s = _
  unfold execRequestTaken; rw [hm]; exact csnRise_of_rises h _

theorem exec_frameError_of_rises {tag : Byte} (h : Rises s t p mosi) (hm : examine mosi = .frameError tag) :
    exec (.frameError p mosi) s = .next (t.placeReply p .frameError tag []) := by
  show execFrameError p mosi s = _
  unfold execFrameError; rw [hm]; exact csnRise_of_rises h _

theorem exec_unknown_of_rises {tag : Byte} (h : Rises s t p mosi) (hm : examine mosi = .unknown tag) :
    exec (.unknown p mosi) s = .next (t.placeReply p .unknown tag []) := by
  show execUnknown p mosi s = _
  unfold execUnknown; rw [hm]; exact csnRise_of_rises h _

end

namespace State

variable {t : State} {p : Port}

/-! ## What the port controller does with a taken frame -/

theorem answersCommissioning_iff : t.answersCommissioning p = true ↔ t.commissioning = true ∧ p ≠ 0 := by
  simp [answersCommissioning]

theorem answersCommissioning_eq_false (h : ¬ (t.commissioning = true ∧ p ≠ 0)) : t.answersCommissioning p = false := by
  rw [← Bool.not_eq_true, answersCommissioning_iff]; exact h

theorem answersCommissioning_reloadLease : (t.reloadLease p).answersCommissioning p = t.answersCommissioning p := rfl

theorem port_reloadLease : (t.reloadLease p).port p = { t.port p with lease := reloaded t p } :=
  (t.port_modPort p p fun c => { c with lease := reloaded t p }).trans (if_pos rfl)

theorem modPort_self {f : PortCtl → PortCtl} (h : f (t.port p) = t.port p) : t.modPort p f = t := by
  have hset : t.ports.set p (t.port p) = t.ports := Vector.set_getElem_self _
  unfold modPort; rw [h, hset]

theorem modPort_reloadLease (f : PortCtl → PortCtl) : (t.reloadLease p).modPort p f =
    { t.modPort p (fun c => f { c with lease := reloaded t p }) with due := dueAfterFrame t p } :=
  congrArg (fun u : State => { u with due := dueAfterFrame t p })
    (t.modPort_modPort p (fun c => { c with lease := reloaded t p }) f)

section
variable (h : t.answersCommissioning p = false)
include h

theorem takeNop_eq (tag : Byte) : t.takeNop p tag = (t.reloadLease p).placeReply p .ok tag [] := by
  unfold takeNop; dsimp only; rw [answersCommissioning_reloadLease, h]; rfl

theorem takeRpt_copy {r : Reply} (hcopy : (t.port p).lastReply = some r) (tag : Byte) :
    t.takeRpt p tag = (t.reloadLease p).placeReply p r.status r.tag r.payload := by
  unfold takeRpt; dsimp only; rw [answersCommissioning_reloadLease, h, port_reloadLease, hcopy]; rfl

theorem takeRpt_noCopy (hcopy : (t.port p).lastReply = none) (tag : Byte) :
    t.takeRpt p tag = (t.reloadLease p).placeReply p .noReply tag [] := by
  unfold takeRpt; dsimp only; rw [answersCommissioning_reloadLease, h, port_reloadLease, hcopy]; rfl

/-- An NTF takes the oldest notice off before the reply's flags are read (R122, R169). -/
theorem takeNtf_eq (tag : Byte) :
    t.takeNtf p tag = ((t.reloadLease p).modPort p fun c => { c with notices := c.notices.tail }).placeReply p .ok tag
      (ntfPayload (t.port p).notices.head?) := by
  have hnotices : ((t.reloadLease p).port p).notices = (t.port p).notices := by rw [port_reloadLease]
  unfold takeNtf; dsimp only; rw [answersCommissioning_reloadLease, h, hnotices]
  cases hn : (t.port p).notices with
  | nil =>
    have hempty : ((t.reloadLease p).modPort p fun c => { c with notices := c.notices.tail }) = t.reloadLease p :=
      modPort_self (by simp only [hnotices, hn, List.tail_nil]; rw [← hn, ← hnotices])
    rw [hempty]; rfl
  | cons n rest =>
    have htail : ((t.reloadLease p).modPort p fun c => { c with notices := c.notices.tail }) =
        (t.reloadLease p).modPort p fun c => { c with notices := rest } :=
      modPort_congr _ _ _ _ (by simp only [hnotices, hn, List.tail_cons])
    rw [htail]; rfl

theorem takeRequest_eq (r : Request) :
    t.takeRequest p r = (t.reloadLease p).modPort p fun c =>
      { c with processing := some r, handedOn := c.handedOn ++ [.request r] } := by
  unfold takeRequest; dsimp only; rw [answersCommissioning_reloadLease, h]; rfl

end

/-- In commissioning state the port controller answers each of the four frames itself (R154). -/
theorem take_commissioning (h : t.answersCommissioning p = true) (tag : Byte) (r : Request) :
    t.takeNop p tag = (t.reloadLease p).placeReply p .commissioning tag [] ∧
    t.takeRpt p tag = (t.reloadLease p).placeReply p .commissioning tag [] ∧
    t.takeNtf p tag = (t.reloadLease p).placeReply p .commissioning tag (ntfPayload none) ∧
    t.takeRequest p r = (t.reloadLease p).placeReply p .commissioning r.tag (zeroPayload r.command) := by
  unfold takeNop takeRpt takeNtf takeRequest
  dsimp only
  rw [answersCommissioning_reloadLease, h]
  exact ⟨rfl, rfl, rfl, rfl⟩

end State

/-! ## The four frames -/

/-- Settles O5: a taken NOP reloads the lease counter and is answered OK. -/
theorem nopIsAnsweredOk : Obligations.NopIsAnsweredOk := by
  intro s t p tag more hrises hcomm
  rw [exec_nop_of_rises hrises (examine_nop tag more), State.takeNop_eq (State.answersCommissioning_eq_false hcomm),
    State.placeReply_reloadLease]

/-- Settles O6: a taken RPT places the last-reply copy again, or NO_REPLY. -/
theorem rptRepeatsLastReplyCopy : Obligations.RptRepeatsLastReplyCopy := by
  intro s t p tag more hrises hcomm
  have hanswers := State.answersCommissioning_eq_false hcomm
  have same {x y : State} (h : x = y) :
      (.next { x with due := dueAfterFrame t p } : Result) = .next { y with due := dueAfterFrame t p } := by rw [h]
  rw [exec_rpt_of_rises hrises (examine_rpt tag more)]
  cases hcopy : (t.port p).lastReply with
  | some r =>
    rw [State.takeRpt_copy hanswers hcopy, State.placeReply_reloadLease]
    exact same (State.modPort_congr _ _ _ _ (by simp only [hcopy]))
  | none =>
    rw [State.takeRpt_noCopy hanswers hcopy, State.placeReply_reloadLease]
    exact same (State.modPort_congr _ _ _ _ (by simp only [hcopy]))

/-- A field's two bytes carry its value, high byte first (R163). -/
theorem wordField_split {n : Nat} (h : n < 65536) :
    ∃ high low : Byte, wordField n = [high, low] ∧ n = high.toNat * 256 + low.toNat := by
  refine ⟨_, _, rfl, ?_⟩
  rw [BitVec.toNat_ofNat, BitVec.toNat_ofNat]
  omega

/-- Settles O7: a taken NTF removes the oldest notice and answers with its kind and fields. -/
theorem ntfFetchesOldestNotice : Obligations.NtfFetchesOldestNotice := by
  refine ⟨?_, by decide, ?_, ?_, ?_, ?_, ?_, ?_, fun n => wordField_split⟩
  · intro s t u p tag more hrises hcomm hu
    rw [exec_ntf_of_rises hrises (examine_ntf tag more), State.takeNtf_eq (State.answersCommissioning_eq_false hcomm),
      State.modPort_reloadLease, hu]
    rfl
  · intro ticket handle units tag; rfl
  · intro ticket cause tag; cases cause <;> rfl
  · intro handle units; rfl
  · intro handle cause; cases cause <;> rfl
  · intro mask; rfl
  · intro cause; cases cause <;> rfl

/-- Settles O9: a taken request of the core is handed on and in processing. -/
theorem requestIsHandedOn : Obligations.RequestIsHandedOn := by
  intro s t p r more hwf hrises hcomm
  rw [exec_requestTaken_of_rises hrises (examine_requestFrame hwf more),
    State.takeRequest_eq (State.answersCommissioning_eq_false hcomm), State.modPort_reloadLease]

/-- Settles O12: in commissioning state P1 to P3 answer every taken frame themselves. -/
theorem commissioningPortsAnswer : Obligations.CommissioningPortsAnswer := by
  intro s t p tag r more hcomm hp hwf
  obtain ⟨hnop, hrpt, hntf, hrequest⟩ := State.take_commissioning (State.answersCommissioning_iff.2 ⟨hcomm, hp⟩) tag r
  refine ⟨fun h => ?_, fun h => ?_, fun h => ?_, fun h => ?_⟩
  · rw [exec_nop_of_rises h (examine_nop tag more), hnop, State.placeReply_reloadLease]
  · rw [exec_rpt_of_rises h (examine_rpt tag more), hrpt, State.placeReply_reloadLease]
  · rw [exec_ntf_of_rises h (examine_ntf tag more), hntf, State.placeReply_reloadLease]; rfl
  · rw [exec_requestTaken_of_rises h (examine_requestFrame hwf more), hrequest, State.placeReply_reloadLease]; rfl

/-! ## Bad frames -/

theorem examine_loneUnknownCode {code : Byte} (hfill : code ≠ Config.fill) (hlen : frameLength code = none) :
    examine [code] = .frameError 0 := by
  simp only [examine]; rw [if_neg hfill, hlen]

theorem examine_unknownCode {code : Byte} (hfill : code ≠ Config.fill) (hlen : frameLength code = none) (tag : Byte)
    (more : List Byte) : examine (code :: tag :: more) = .unknown tag := by
  simp only [examine]; rw [if_neg hfill, hlen]

/-- The examination of a known code: too short, a bad CRC-8, or a whole frame (R166). -/
theorem examine_knownCode {code : Byte} {len : Nat} (hfill : code ≠ Config.fill) (hlen : frameLength code = some len)
    (rest : List Byte) :
    examine (code :: rest) =
      if (code :: rest).length < len then .frameError (rest.headD 0)
      else if crc8 ((code :: rest).take len).dropLast ≠ ((code :: rest).take len).getLastD 0 then
        .frameError (rest.headD 0)
      else frameOf code (rest.headD 0) ((((code :: rest).take len).drop 2).dropLast) := by
  simp only [examine]; rw [if_neg hfill, hlen]

/-- A whole frame without its CRC-8. -/
theorem dropLast_take_of_le {l : List Byte} {n : Nat} (h : n ≤ l.length) : (l.take n).dropLast = l.take (n - 1) := by
  rw [List.dropLast_eq_take, List.take_take, List.length_take, Nat.min_eq_left h, Nat.min_eq_left (Nat.sub_le n 1)]

theorem examine_badFrame {code : Byte} {len : Nat} {rest : List Byte} (hfill : code ≠ Config.fill)
    (hlen : frameLength code = some len)
    (hbad : rest.length + 1 < len ∨ crc8 ((code :: rest).take (len - 1)) ≠ ((code :: rest).take len).getLastD 0) :
    examine (code :: rest) = .frameError (rest.headD 0) := by
  rw [examine_knownCode hfill hlen]
  split
  · rfl
  · rename_i hwhole
    have hcrc := hbad.resolve_left hwhole
    have hbody : ((code :: rest).take len).dropLast = (code :: rest).take (len - 1) :=
      dropLast_take_of_le (Nat.le_of_not_lt hwhole)
    rw [hbody, if_pos hcrc]

/-- Settles O10: which of the bad frames it is decides the answer, and nothing else changes. -/
theorem badFramesAreAnswered : Obligations.BadFramesAreAnswered := by
  intro s t p code rest hfill hrises
  refine ⟨fun hlen hrest => ?_, fun hlen tag htag => ?_, fun len hlen hbad => ?_⟩
  · subst hrest
    rw [exec_frameError_of_rises hrises (examine_loneUnknownCode hfill hlen)]; rfl
  · obtain ⟨more, rfl⟩ := List.head?_eq_some_iff.1 htag
    rw [exec_unknown_of_rises hrises (examine_unknownCode hfill hlen tag more)]; rfl
  · rw [exec_frameError_of_rises hrises (examine_badFrame hfill hlen hbad)]; rfl

end Machine

end Sys2Proof
end

section
/-! Proofs, part 42: the rotation among the ports, the session check before a command's own checks, and ATT. -/

namespace Sys2Proof.Machine

namespace State

variable {s t : State} {p : Port}

/-! ## The rotation -/

/-- The rotation looks at the four ports in cyclic order, the port taken last at the end (R171). -/
theorem nextRequester_eq_find? (s : State) : s.nextRequester =
    (Fin.find? fun k : Fin 4 => s.requestWaits (s.lastTaken + 1 + k)).map (s.lastTaken + 1 + ·) := by
  have cyclic : ∀ a : Port, [a + 1, a + 2, a + 3, a] = (List.finRange 4).map (a + 1 + ·) := by decide
  rw [nextRequester, cyclic, List.find?_map, Fin.find?_eq_find?_finRange]
  rfl

theorem nextRequester_eq_some_iff : s.nextRequester = some p ↔
    s.requestWaits p = true ∧
      ∀ k : Fin 4, k < p - (s.lastTaken + 1) → s.requestWaits (s.lastTaken + 1 + k) = false := by
  have place (k : Fin 4) : s.lastTaken + 1 + k = p ↔ k = p - (s.lastTaken + 1) := eq_sub_iff_add_eq'.symm
  simp only [nextRequester_eq_find?, Option.map_eq_some_iff, place, exists_eq_right, Fin.find?_eq_some_iff,
    add_sub_cancel]

theorem requestWaits_of_head {r : Request} (h : (s.port p).handedOn.head? = some (.request r)) :
    s.requestWaits p = true := by
  obtain ⟨rest, hlist⟩ := List.head?_eq_some_iff.1 h
  rw [requestWaits, hlist]; rfl

theorem takes_iff {r : Request} : s.takes p r = true ↔
    s.phase = .running ∧ (s.port p).handedOn.head? = some (.request r) ∧
      ∀ k : Fin 4, k < p - (s.lastTaken + 1) → s.requestWaits (s.lastTaken + 1 + k) = false := by
  simp only [takes, Bool.and_eq_true, beq_iff_eq, nextRequester_eq_some_iff]
  constructor
  · rintro ⟨⟨hphase, _, hothers⟩, hhead⟩
    exact ⟨hphase, hhead, hothers⟩
  · rintro ⟨hphase, hhead, hothers⟩
    exact ⟨⟨hphase, requestWaits_of_head hhead, hothers⟩, hhead⟩

theorem port_took (p : Port) : (s.took p).port p = { s.port p with handedOn := (s.port p).handedOn.tail } :=
  (s.port_modPort p p fun c => { c with handedOn := c.handedOn.tail }).trans (if_pos rfl)

theorem deliverPosts_nil (h : s.transit = []) : s.deliverPosts = s := by
  rw [deliverPosts, h, List.foldl_nil, ← h]

/-- With nothing left to come about, the core takes work in the state as it is (log entries 5 and 6). -/
theorem ready_eq_self (hdue : s.due = []) (htransit : s.transit = []) (hanswer : s.answering = none) : s.ready = s := by
  rw [ready, s.settle_nil hdue, deliverPosts_nil htransit, placeAnswer_none hanswer]

end State

/-- Settles O17: the rotation takes the next port with a request waiting. -/
theorem rotationPicksNextWaitingPort : Obligations.RotationPicksNextWaitingPort := by
  intro s p r
  refine ⟨State.takes_iff, rfl, ?_, State.ready_eq_self⟩
  rw [State.port_took]

/-! ## The session check -/

/-- A command's own checks and effect, after the session check (R175). -/
def commandEffect (p : Port) (r : Request) (t : State) : State :=
  match r.command with
  | .att lease => t.answerAtt p lease
  | .det => (t.detachSession p).replyWith p .ok []
  | .rsv pool floor max wait => t.answerRsv p r.tag pool floor max wait
  | .adj handle units => t.answerAdj p handle units
  | .rel handle => t.answerRel p handle
  | .can ticket => t.answerCan p ticket
  | .cnf handle => t.answerCnf p handle
  | .qgr handle => t.answerQgr p handle
  | .qpl pool => t.answerQpl p pool
  | .qpt => t.answerQpt p
  | .qdv => t.replyWith p .ok t.qdvPayload
  | .clm mask mode watch => t.answerClm p mask mode watch
  | .drp mask => t.answerDrp p mask
  | .cnt mask => t.answerCnt p mask
  | .uwt mask => t.answerUwt p mask
  | .scp pool nominal derated => t.answerScp p pool nominal derated
  | .rvk handle => t.answerRvk p handle
  | .evc target => t.answerEvc p target
  | .rsr => t.answerRsr p
  | .srd slot block => t.inStore p (.srd slot block) fun u => u.answerSrd p slot block
  | .stg block data => t.inStore p (.stg block data) fun u => u.answerStg p block data
  | .chk => t.inStore p .chk fun u => u.answerChk p
  | .sel => t.inStore p .sel fun u => u.answerSel p

/-- Every command the core takes is a work item of the one form: the session check, then the command's own (R175). -/
theorem exec_stepOf (s : State) (p : Port) (r : Request) :
    exec (stepOf p r) s = coreRequest s p r (commandEffect p r) := by
  obtain ⟨tag, command⟩ := r
  cases command <;> rfl

theorem exec_stepOf_refused {s t : State} {p : Port} {r : Request} {status : Status} (h : Taken s t p r)
    (hrefusal : t.sessionRefusal p r.command = some status) :
    exec (stepOf p r) s = .next (refusedWith t p status (payloadLength r.command)) := by
  rw [exec_stepOf, coreRequest_taken h, hrefusal]
  rfl

namespace State

variable {t : State} {p : Port} {c : Command}

section
variable (hc : t.commissioning = false) (ha : anySession c = false)
include hc ha

theorem sessionRefusal_lapsed (h : (t.session p).state = .lapsed) : t.sessionRefusal p c = some .lapsed := by
  simp [sessionRefusal, hc, ha, h]

theorem sessionRefusal_notAttached (h : (t.session p).state = .detached ∨ (t.session p).state = .recovering) :
    t.sessionRefusal p c = some .notAttached := by
  rcases h with h | h <;> simp [sessionRefusal, hc, ha, h]

end

theorem sessionRefusal_commissioning (hc : t.commissioning = true) (hcommand : inCommissioning c = false) :
    t.sessionRefusal p c = some .commissioning := by
  simp [sessionRefusal, hc, hcommand]

end State

/-- Settles O16: the session check refuses before any check of the command. -/
theorem sessionCheckComesFirst : Obligations.SessionCheckComesFirst := by
  refine ⟨fun c => by cases c <;> exact ⟨rfl, rfl, rfl⟩, fun s t p r h => ⟨?_, ?_, ?_⟩⟩
  · exact fun hc ha hstate => exec_stepOf_refused h (State.sessionRefusal_lapsed hc ha hstate)
  · exact fun hc ha hstate => exec_stepOf_refused h (State.sessionRefusal_notAttached hc ha hstate)
  · exact fun hc hcommand => exec_stepOf_refused h (State.sessionRefusal_commissioning hc hcommand)

/-! ## ATT -/

namespace State

variable {t : State} {p : Port} {lease : Word}

theorem unconfigured_iff : t.unconfigured = true ↔ t.profile.version = 0 := decide_eq_true_iff

/-- The checks of ATT, in the order of R176. -/
def attChecks (t : State) (p : Port) (lease : Word) : List (Bool × Status) :=
  [ (!t.unconfigured, .noProfile),
    ((t.portProfile p).leaseMin ≤ lease.toNat && lease.toNat ≤ (t.portProfile p).leaseMax, .badValue) ]

theorem answerAtt_refused {status : Status} (h : firstFailure (t.attChecks p lease) = some status) :
    t.answerAtt p lease = refusedWith t p status 7 := by
  unfold answerAtt; rw [← attChecks, h]; rfl

theorem answerAtt_passed (h : firstFailure (t.attChecks p lease) = none) :
    t.answerAtt p lease = answered (t.attach p lease) p .ok (t.attPayload p) := by
  unfold answerAtt; rw [← attChecks, h]; rfl

theorem attChecks_noProfile (h : t.profile.version = 0) : firstFailure (t.attChecks p lease) = some .noProfile := by
  unfold attChecks; rw [unconfigured_iff.2 h]; rfl

section
variable (h : t.profile.version ≠ 0)
include h

theorem attChecks_of_configured : firstFailure (t.attChecks p lease) =
    if (t.portProfile p).leaseMin ≤ lease.toNat ∧ lease.toNat ≤ (t.portProfile p).leaseMax then none
    else some .badValue := by
  have hconfigured : t.unconfigured = false := by rw [← Bool.not_eq_true, unconfigured_iff]; exact h
  simp only [attChecks, firstFailure_cons, hconfigured, Bool.not_false, if_true, Bool.and_eq_true, decide_eq_true_eq]
  rfl

theorem attChecks_badValue
    (hout : lease.toNat < (t.portProfile p).leaseMin ∨ (t.portProfile p).leaseMax < lease.toNat) :
    firstFailure (t.attChecks p lease) = some .badValue := by
  rw [attChecks_of_configured h, if_neg (by omega)]

theorem attChecks_pass (hmin : (t.portProfile p).leaseMin ≤ lease.toNat)
    (hmax : lease.toNat ≤ (t.portProfile p).leaseMax) : firstFailure (t.attChecks p lease) = none := by
  rw [attChecks_of_configured h, if_pos ⟨hmin, hmax⟩]

end

/-- The attachment, its lapse events discarded where the session comes back to ATTACHED (R104, R109). -/
theorem attach_eq : t.attach p lease =
    (t.setSession p { state := .attached, leasePeriod := lease.toNat, lapseCause := none }).modPort p fun c =>
      { c with
        lease := some lease.toNat
        handedOn := if (t.session p).state = .attached then c.handedOn else c.handedOn.filter (· ≠ .lapse) } :=
  modPort_congr _ _ _ _ rfl

end State

/-- Settles O18: ATT is refused without a profile or for a lease period out of bounds, and otherwise attaches. -/
theorem attachAnswers : Obligations.AttachAnswers := by
  refine ⟨rfl, fun s t p tag lease h hc => ?_⟩
  have hexec : exec (.att p tag lease) s = .next (t.answerAtt p lease) :=
    coreRequest_anySession h hc rfl fun u => u.answerAtt p lease
  rw [hexec]
  refine ⟨fun hversion => ?_, fun hversion hout => ?_, fun hversion hmin hmax => ?_⟩
  · rw [State.answerAtt_refused (State.attChecks_noProfile hversion)]
  · rw [State.answerAtt_refused (State.attChecks_badValue hversion hout)]
  · rw [State.answerAtt_passed (State.attChecks_pass hversion hmin hmax), State.attach_eq]
    rfl

end Sys2Proof.Machine
end

section
/-! Proofs, part 43: what handing over the notices leaves in the port controllers, and the core's answer after them. -/

namespace Sys2Proof.Machine

/-! ## Storing notices -/

theorem PortCtl.store_of_lt {c : PortCtl} (h : c.notices.length < 8) (n : Notice) :
    c.store n = { c with notices := c.notices ++ [n] } := if_pos h

theorem PortCtl.store_of_full {c : PortCtl} (h : 8 ≤ c.notices.length) (n : Notice) :
    c.store n = { c with missed := true } := if_neg (Nat.not_lt.2 h)

/-- A queue takes notices up to 8 and sets MISSED once it loses one (R117, R120). -/
theorem PortCtl.foldl_store {c : PortCtl} (h : c.notices.length ≤ 8) (l : List Notice) :
    l.foldl PortCtl.store c = { c with
      notices := (c.notices ++ l).take 8, missed := c.missed || decide (8 < (c.notices ++ l).length) } := by
  induction l generalizing c with
  | nil => simp [List.take_of_length_le h, Nat.not_lt.2 h]
  | cons n rest ih =>
    rw [List.foldl_cons]
    rcases Nat.lt_or_eq_of_le h with hroom | hfull
    · rw [store_of_lt hroom, ih (by simpa using hroom)]
      simp
    · rw [store_of_full (Nat.le_of_eq hfull.symm), ih (c := { c with missed := true }) h]
      simp [hfull, List.take_append_of_le_length (Nat.le_of_eq hfull.symm)]

/-! ## A session's code, and taking the first of its kind off a list -/

theorem SessionState.code_lt (x : SessionState) : x.code < 4 := by cases x <;> decide

/-- What `find?` finds is what `eraseP` takes off. -/
theorem eraseP_eq_erase_of_find? {α : Type} [BEq α] [LawfulBEq α] {x : α} {l : List α} {f : α → Bool}
    (h : l.find? f = some x) : l.eraseP f = l.erase x := by
  obtain ⟨hx, before, after, rfl, hbefore⟩ := List.find?_eq_some_iff_append.1 h
  have hnone : ∀ y ∈ before, ¬ f y = true := by simpa using hbefore
  have hnot : x ∉ before := fun hmem => hnone x hmem hx
  rw [List.eraseP_append_right _ hnone, List.eraseP_cons_of_pos hx, List.erase_append_right _ hnot,
    List.erase_cons_head]

namespace State

variable {s t : State} {p : Port}

theorem coreActive_iff : s.coreActive = true ↔ s.phase = .running ∨ s.phase = .resetTaking := by
  simp [coreActive]

/-- Each port controller is handed those notices of the list that are its own, in their order (R119). -/
theorem port_foldl_store (l : List (Port × Notice)) (s : State) (q : Port) :
    (l.foldl (fun u x => u.modPort x.1 (·.store x.2)) s).port q =
      ((l.filter fun x => x.1 == q).map Prod.snd).foldl PortCtl.store (s.port q) := by
  induction l generalizing s with
  | nil => rfl
  | cons x rest ih =>
    rw [List.foldl_cons, ih, port_modPort, List.filter_cons]
    by_cases hq : q = x.1
    · subst hq; simp
    · simp [hq, Ne.symm hq]

theorem port_deliverPosts (hlaw : NoticeLaw s) (q : Port) :
    s.deliverPosts.port q = { s.port q with
      notices := ((s.port q).notices ++ (s.transit.filter fun x => x.1 == q).map Prod.snd).take 8
      missed := (s.port q).missed ||
        decide (8 < ((s.port q).notices ++ (s.transit.filter fun x => x.1 == q).map Prod.snd).length) } :=
  (port_foldl_store s.transit { s with transit := [] } q).trans (PortCtl.foldl_store (hlaw q) _)

/-- The answer is placed with the tag of the request in processing and the flags byte read there; the processing ends
(R125, R165, R167). -/
theorem placeAnswer_some {a : Answer} {r : Request} (ha : t.answering = some a)
    (hr : (t.port a.port).processing = some r) :
    t.placeAnswer = { t.modPort a.port (fun c =>
      { c with processing := none, reply := some (replyIn t a.port a.status r.tag a.payload) }) with answering := none } := by
  unfold placeAnswer
  rw [ha]
  simp only [hr]
  exact placeReply_modPort { t with answering := none } a.port (fun c => { c with processing := none }) a.status r.tag
    a.payload rfl rfl

theorem exec_replyPlaced {a : Answer} (hactive : s.coreActive = true) (ha : s.answering = some a) :
    exec (.replyPlaced a.port) s = .next s.deliverPosts.placeAnswer := by
  show execReplyPlaced a.port s = _
  unfold execReplyPlaced
  rw [ha]
  exact if_pos ⟨hactive, rfl⟩

/-! ## The flags byte -/

/-- With at most 8 notices the four fields of the flags byte do not overlap (R165). -/
theorem flags_toNat (hlaw : NoticeLaw s) (p : Port) :
    (s.flags p).toNat = (s.session p).state.code + 4 * (s.port p).notices.length +
      (if (s.port p).missed then 64 else 0) + if s.window.isOpen then 128 else 0 := by
  have hcode := SessionState.code_lt (s.session p).state
  have hnotices : (s.port p).notices.length ≤ 8 := hlaw p
  unfold flags
  rw [BitVec.toNat_ofNat]
  refine Nat.mod_eq_of_lt ?_
  split <;> split <;> omega

/-! ## The oldest notice in transit -/

theorem exec_noticePost {n : Notice} (hactive : s.coreActive = true)
    (hfind : (s.transit.find? fun x => x.1 == p) = some (p, n)) :
    exec (.noticePost p) s = .next { s.modPort p (·.store n) with transit := s.transit.erase (p, n) } := by
  show execNoticePost p s = _
  unfold execNoticePost
  rw [hfind]
  simp only [hactive, if_true, eraseP_eq_erase_of_find? hfind]
  rfl

end State

/-! ## The obligations -/

theorem Reply.bytes_eq (r : Reply) : r.bytes = r.status.code :: r.tag :: r.flags :: r.payload ++
    [crc8 (r.status.code :: r.tag :: r.flags :: r.payload)] := rfl

/-- Settles O13: the notices are folded into their queues, and the answer is placed on what that leaves. -/
theorem replyIsPlacedAfterNotices : Obligations.ReplyIsPlacedAfterNotices := by
  refine ⟨fun s p hlaw => ?_, Reply.bytes_eq, rfl, ?_⟩
  · rw [State.flags_toNat hlaw]
    cases (s.session p).state <;> rfl
  · rintro s t a r hactive hlaw ha hr rfl
    have hport := State.port_deliverPosts hlaw
    have ha' : s.deliverPosts.answering = some a := by rw [s.deliverPosts_frame]; exact ha
    have hr' : (s.deliverPosts.port a.port).processing = some r := by rw [hport]; exact hr
    refine ⟨hport, ?_⟩
    rw [State.exec_replyPlaced (State.coreActive_iff.2 hactive) ha, State.placeAnswer_some ha' hr']

/-- Settles O14: ATTN is a level of the queue while the core is at work, and NOTICE_POST stores the oldest notice in
transit. -/
theorem noticeIsStoredOrMissed : Obligations.NoticeIsStoredOrMissed := by
  refine ⟨fun s p => ?_, fun s p n hactive hfind => ?_⟩
  · simp only [State.attn, State.coreActive_iff]
  · exact State.exec_noticePost (State.coreActive_iff.2 hactive) hfind

end Sys2Proof.Machine
end

section
/-! Proofs, part 44: RSTN, power and the taking of the warm reset. -/

namespace Sys2Proof.Machine

namespace State

variable {s : State}

/-! ## What a reset and a loss of power do at once -/

/-- Cutting transactions touches the port controllers and nothing else (R168). -/
theorem cutTransactions_effect (s : State) :
    CutsTransactions s s.cutTransactions ∧ s.cutTransactions = { s with ports := s.cutTransactions.ports } :=
  ⟨fun q => tabulate_get _ q, rfl⟩

theorem rstnFalls_running (h : s.phase = .running) : s.rstnFalls = ({ s with rstn := .low } : State).enterReset := by
  unfold rstnFalls; rw [h]

/-- A start is abandoned; any other phase but running stays as it is (R130). -/
theorem rstnFalls_not_running (h : s.phase ≠ .running) :
    s.rstnFalls = { s with
      rstn := .low
      phase := match s.phase with
        | .warmStarting => .inReset
        | .coldStarting => .coldWaiting
        | x => x } := by
  unfold rstnFalls
  cases hphase : s.phase with
  | running => exact absurd hphase h
  | _ => rfl

theorem rstnRises_eq (s : State) :
    s.rstnRises = { s with
      rstn := .high
      phase := match s.phase with
        | .inReset => .warmStarting
        | .coldWaiting => .coldStarting
        | x => x } := by
  unfold rstnRises
  cases s.phase <;> rfl

/-- RSTN going low: transactions are cut in a running part alone, and the phase moves (R130, R168). -/
theorem rstnFalls_effect (s : State) :
    s.rstnFalls = { s with
      rstn := .low, ports := s.rstnFalls.ports
      phase := match s.phase with
        | .running => .resetTaking
        | .warmStarting => .inReset
        | .coldStarting => .coldWaiting
        | x => x } ∧
    (s.phase = .running → CutsTransactions s s.rstnFalls) ∧ (s.phase ≠ .running → s.rstnFalls.ports = s.ports) := by
  by_cases hrun : s.phase = .running
  · obtain ⟨hcuts, _⟩ := cutTransactions_effect { s with rstn := .low }
    refine ⟨?_, fun _ => ?_, fun hnot => absurd hrun hnot⟩
    · rw [rstnFalls_running hrun, hrun]; rfl
    · rw [rstnFalls_running hrun]; exact hcuts
  · refine ⟨?_, fun h => absurd h hrun, fun _ => ?_⟩
    · rw [rstnFalls_not_running hrun]
      cases hphase : s.phase with
      | running => exact absurd hphase hrun
      | _ => rfl
    · rw [rstnFalls_not_running hrun]

/-- Losing power aborts the seal and cuts the transactions; the tables stand (R158, log entry 17). -/
theorem losePower_effect (cut : SealCut) (h : MemoryLaw s) :
    CutsTransactions s (s.losePower cut) ∧ AbortsSeal s (s.losePower cut) cut ∧
      s.losePower cut = { s with
        ports := (s.losePower cut).ports, slots := (s.losePower cut).slots, sealing := none, phase := .off
        signature := .differing } := by
  obtain ⟨haborts, hframe⟩ := s.abortSeal_effect cut h
  obtain ⟨hcuts, _⟩ := (s.abortSeal cut).cutTransactions_effect
  have hports : (s.abortSeal cut).ports = s.ports := by rw [hframe]
  refine ⟨fun q => ?_, haborts, ?_⟩
  · have hport : (s.abortSeal cut).port q = s.port q := by unfold port; rw [hports]
    rw [← hport]; exact hcuts q
  · unfold losePower
    generalize s.abortSeal cut = v at hframe ⊢
    rw [hframe]; rfl

/-- The core takes the warm reset: the seal is aborted, and the work and the ports are as after a start (R128, R129, R158). -/
theorem takeReset_effect (cut : SealCut) (h : MemoryLaw s) :
    FreshPorts s (s.takeReset cut) ∧ NoWorkWaiting (s.takeReset cut) ∧ AbortsSeal s (s.takeReset cut) cut ∧
      s.takeReset cut = { s with
        ports := (s.takeReset cut).ports, answering := none, transit := [], expiryEvents := [], sagEvents := []
        auditEndMade := false, due := [], slots := (s.takeReset cut).slots, sealing := none
        phase := if s.rstn = .low then .inReset else .warmStarting } := by
  obtain ⟨haborts, hframe⟩ := s.abortSeal_effect cut h
  obtain ⟨hfresh, hquiet, _⟩ := (s.abortSeal cut).discardWork_effect
  have hports : (s.abortSeal cut).ports = s.ports := by rw [hframe]
  refine ⟨fun q => ?_, hquiet, haborts, ?_⟩
  · have hport : (s.abortSeal cut).port q = s.port q := by unfold port; rw [hports]
    rw [← hport]; exact hfresh q
  · unfold takeReset
    generalize s.abortSeal cut = v at hframe ⊢
    rw [hframe]; rfl

/-! ## The rows -/

theorem exec_rstnLow_low (h : s.rstn = .low) : exec .rstnLow s = .next s := if_pos h

theorem exec_rstnLow_high (h : s.rstn = .high) : exec .rstnLow s = .next s.rstnFalls :=
  if_neg (by rw [h]; decide)

theorem exec_powerOn_off (h : s.phase = .off) : exec .powerOn s = .next s.gainPower := if_pos h

theorem exec_powerOn_powered (h : s.phase ≠ .off) : exec .powerOn s = .next s := if_neg h

theorem exec_powerInterruption (h : s.phase ≠ .off) (cut : SealCut) :
    exec (.powerInterruption cut) s = .next (s.losePower cut) := if_neg h

theorem exec_warmReset (h : s.phase = .resetTaking) (cut : SealCut) :
    exec (.warmReset cut) s = .next (s.takeReset cut) := if_pos h

end State

/-! ## The obligations -/

/-- Settles O51: each row by the level and the phase it finds, and what it does at once by the effects above. -/
theorem pinsAndPowerMoveThePhase : Obligations.PinsAndPowerMoveThePhase := by
  intro s cut
  refine ⟨State.exec_rstnLow_low, fun hhigh => ?_, ?_, fun hoff => ?_, State.exec_powerOn_powered, fun hon hmem => ?_⟩
  · exact ⟨s.rstnFalls, State.exec_rstnLow_high hhigh, s.rstnFalls_effect⟩
  · exact congrArg Host.Outcome.next s.rstnRises_eq
  · obtain ⟨hfresh, hquiet, _⟩ := s.discardWork_effect
    exact ⟨s.gainPower, State.exec_powerOn_off hoff, hfresh, hquiet, rfl⟩
  · exact ⟨s.losePower cut, State.exec_powerInterruption hon cut, State.losePower_effect cut hmem⟩

/-- Settles O52: the reset is taken over the aborted seal, whose frame leaves the tables. -/
theorem warmResetDiscardsUntakenWork : Obligations.WarmResetDiscardsUntakenWork := by
  intro s cut hphase hmem
  exact ⟨s.takeReset cut, State.exec_warmReset hphase cut, State.takeReset_effect cut hmem⟩

end Sys2Proof.Machine
end

section
/-! Proofs, part 45: RSR, refused or the entry into reset (R129, R168, R195). -/

namespace Sys2Proof.Machine

namespace State

variable {t : State} {p : Port}

theorem answerRsr_noRight (h : (t.portProfile p).supervise = false) :
    t.answerRsr p = refusedWith t p .noRight 0 := by
  unfold answerRsr; rw [h]; rfl

theorem answerRsr_supervise (h : (t.portProfile p).supervise = true) : t.answerRsr p = t.enterReset := by
  unfold answerRsr; rw [h]; rfl

/-- The entry into reset is the cut of the transactions and the phase; every other part stands (R129, R168). -/
theorem enterReset_effect (s : State) :
    CutsTransactions s s.enterReset ∧
      s.enterReset = { s with ports := s.enterReset.ports, phase := .resetTaking } := by
  obtain ⟨hcuts, hframe⟩ := s.cutTransactions_effect
  exact ⟨hcuts, congrArg (fun u : State => { u with phase := .resetTaking }) hframe⟩

end State

/-- Settles O37: RSR's one check decides between the refusal and the entry into reset. -/
theorem requestResetEntersReset : Obligations.RequestResetEntersReset := by
  intro s t p tag htaken hattached
  have hexec : exec (.rsr p tag) s = .next (t.answerRsr p) :=
    coreRequest_attached htaken hattached fun u => u.answerRsr p
  refine ⟨fun hno => ?_, fun hright => ⟨t.enterReset, ?_, t.enterReset_effect⟩⟩
  · rw [hexec, State.answerRsr_noRight hno]
  · rw [hexec, State.answerRsr_supervise hright]

end Sys2Proof.Machine
end

section
/-! Proofs, part 46: every step keeps the tables empty in commissioning state (L12, R153). Only a cold start enters or leaves
that state; what the core does to empty tables leaves them empty. -/

namespace Sys2Proof.Machine

/-! ## Commissioning state -/

namespace State

variable (s : State)

@[simp] theorem createGrant_commissioning (i : GrantNo) (g : Grant) :
    (s.createGrant i g).commissioning = s.commissioning := by rw [createGrant_frame]

@[simp] theorem growGrant_commissioning (i : GrantNo) (g : Grant) (v : Nat) :
    (s.growGrant i g v).commissioning = s.commissioning := by rw [growGrant_frame]

@[simp] theorem shrinkGrant_commissioning (i : GrantNo) (g : Grant) (v : Nat) :
    (s.shrinkGrant i g v).commissioning = s.commissioning := by rw [shrinkGrant_frame]

@[simp] theorem freeGrant_commissioning (i : GrantNo) : (s.freeGrant i).commissioning = s.commissioning := by
  cases hg : s.grant? i with
  | none => rw [freeGrant_free hg]
  | some g => rw [freeGrant_live hg]

@[simp] theorem removeRecord_commissioning (w : WaitNo) : (s.removeRecord w).commissioning = s.commissioning := by
  rw [removeRecord_frame]

@[simp] theorem queueRecord_commissioning (w : WaitNo) (r : WaitRecord) :
    (s.queueRecord w r).commissioning = s.commissioning := rfl

@[simp] theorem freeTokens_commissioning (m : Word) : (s.freeTokens m).commissioning = s.commissioning := by
  obtain ⟨_, _, _, hframe⟩ := s.freeTokens_effect m
  rw [hframe]

@[simp] theorem closeIfDone_commissioning : s.closeIfDone.commissioning = s.commissioning := by rw [closeIfDone_eq]

@[simp] theorem detachBare_commissioning : s.detachBare.commissioning = s.commissioning := by
  obtain ⟨_, hframe⟩ := s.detachBare_effect
  rw [hframe]

@[simp] theorem servicePass_commissioning (roots : List PoolNo) :
    (s.servicePass roots).commissioning = s.commissioning := by
  obtain ⟨hframe, _⟩ := s.onlyServes_servicePass roots
  rw [hframe]

@[simp] theorem shed_commissioning (n : PoolNo) : (s.shed n).commissioning = s.commissioning := by
  obtain ⟨hframe, _⟩ := s.onlySheds_shed n
  rw [hframe]

@[simp] theorem refuse_commissioning (p : Port) (c : Command) (x : Status) :
    (s.refuse p c x).commissioning = s.commissioning := rfl

theorem foldl_commissioning {α : Type} {f : State → α → State} (hf : ∀ s x, (f s x).commissioning = s.commissioning)
    (l : List α) : (l.foldl f s).commissioning = s.commissioning := by
  induction l generalizing s with
  | nil => rfl
  | cons x rest ih => exact (ih (f s x)).trans (hf s x)

@[simp] theorem releaseHoldings_commissioning (p : Port) : (s.releaseHoldings p).commissioning = s.commissioning := by
  unfold releaseHoldings
  dsimp only
  rw [freeTokens_commissioning]
  exact (foldl_commissioning _ freeGrant_commissioning _).trans (foldl_commissioning _ removeRecord_commissioning _)

@[simp] theorem lapseSession_commissioning (p : Port) (cause : LapseCause) :
    (s.lapseSession p cause).commissioning = s.commissioning := by simp [lapseSession]

@[simp] theorem detachSession_commissioning (p : Port) : (s.detachSession p).commissioning = s.commissioning := by
  simp [detachSession]

/-! ## Requests leave it -/

variable (p : Port)

theorem answerAtt_commissioning (lease : Word) : (s.answerAtt p lease).commissioning = s.commissioning := by
  unfold answerAtt
  split <;> rfl

theorem queueRsv_commissioning (tag pool : Byte) (n : PoolNo) (floor max wait : Word) :
    (s.queueRsv p tag pool n floor max wait).commissioning = s.commissioning := by
  unfold queueRsv
  split
  · rfl
  · split
    · rfl
    · unfold markIfFull
      split <;> simp

theorem answerRsv_commissioning (tag pool : Byte) (floor max wait : Word) :
    (s.answerRsv p tag pool floor max wait).commissioning = s.commissioning := by
  have queued (n : PoolNo) := s.queueRsv_commissioning p tag pool n floor max wait
  unfold answerRsv decideRsv
  dsimp only
  split
  · rfl
  · split
    · rfl
    · split
      · rfl
      · split
        · split
          · simp
          · split
            · rfl
            · exact queued _
        · split
          · rfl
          · exact queued _

theorem answerAdj_commissioning (handle units : Word) :
    (s.answerAdj p handle units).commissioning = s.commissioning := by
  unfold answerAdj adjustGrant
  dsimp only
  split
  · rfl
  · split
    · rfl
    · split
      · rfl
      · split
        · rfl
        · split
          · simp
          · split
            · rfl
            · simp

theorem freeAndServe_commissioning (i : GrantNo) (g : Grant) {told : State → State}
    (ht : ∀ t, (told t).commissioning = t.commissioning) :
    (s.freeAndServe i g told).commissioning = s.commissioning := by simp [freeAndServe, ht]

theorem answerRel_commissioning (handle : Word) : (s.answerRel p handle).commissioning = s.commissioning := by
  unfold answerRel
  split
  · rfl
  · rw [replyWith_commissioning]; exact s.freeAndServe_commissioning _ _ fun _ => rfl

theorem endRecord_commissioning (w : WaitNo) (r : WaitRecord) {told : State → State}
    (ht : ∀ t, (told t).commissioning = t.commissioning) :
    (s.endRecord w r told).commissioning = s.commissioning := by
  unfold endRecord
  dsimp only
  split <;> simp [ht]

theorem answerCan_commissioning (ticket : Word) : (s.answerCan p ticket).commissioning = s.commissioning := by
  unfold answerCan
  split
  · rfl
  · rw [replyWith_commissioning]; exact s.endRecord_commissioning _ _ fun _ => rfl

theorem answerCnf_commissioning (handle : Word) : (s.answerCnf p handle).commissioning = s.commissioning := by
  unfold answerCnf
  dsimp only
  split
  · rfl
  · split
    · rfl
    · simp

theorem answerClm_commissioning (mask : Word) (mode watch : Byte) :
    (s.answerClm p mask mode watch).commissioning = s.commissioning := by
  unfold answerClm
  split <;> rfl

theorem answerDrp_commissioning (mask : Word) : (s.answerDrp p mask).commissioning = s.commissioning := by
  unfold answerDrp
  split <;> simp

theorem answerCnt_commissioning (mask : Word) : (s.answerCnt p mask).commissioning = s.commissioning := by
  unfold answerCnt
  split <;> simp

theorem answerUwt_commissioning (mask : Word) : (s.answerUwt p mask).commissioning = s.commissioning := by
  unfold answerUwt
  split <;> rfl

theorem changeCapacity_commissioning (n : PoolNo) (nominal derated : Nat) :
    (s.changeCapacity n nominal derated).commissioning = s.commissioning := by
  unfold changeCapacity
  dsimp only
  split
  · simp
  · split
    · split <;> simp
    · rfl

theorem answerScp_commissioning (pool : Byte) (nominal derated : Word) :
    (s.answerScp p pool nominal derated).commissioning = s.commissioning := by
  unfold answerScp
  dsimp only
  split
  · rfl
  · split
    · rfl
    · split
      · rfl
      · rw [replyWith_commissioning]; exact s.changeCapacity_commissioning _ _ _

theorem answerRvk_commissioning (handle : Word) : (s.answerRvk p handle).commissioning = s.commissioning := by
  unfold answerRvk
  dsimp only
  split
  · rfl
  · split
    · rfl
    · rw [replyWith_commissioning]
      refine s.freeAndServe_commissioning _ _ fun t => ?_
      unfold tellRevoked
      split <;> simp

theorem answerEvc_commissioning (target : Byte) : (s.answerEvc p target).commissioning = s.commissioning := by
  unfold answerEvc
  dsimp only
  split
  · rfl
  · split
    · rfl
    · split
      · rfl
      · split <;> simp

end State

/-- Commissioning state is among the core's settings. -/
theorem KeepsCore.commissioning {s t : State} (h : KeepsCore s t) : t.commissioning = s.commissioning :=
  have core {α : Type} (f : State → α) : f t.core = f s.core := congrArg f h
  core State.commissioning

/-- No request enters or leaves commissioning state (R153). -/
theorem commandEffect_commissioning (p : Port) (r : Request) (t : State) :
    (commandEffect p r t).commissioning = t.commissioning := by
  obtain ⟨tag, command⟩ := r
  cases command with
  | att lease => exact t.answerAtt_commissioning p lease
  | det => exact t.detachSession_commissioning p
  | rsv pool floor max wait => exact t.answerRsv_commissioning p tag pool floor max wait
  | adj handle units => exact t.answerAdj_commissioning p handle units
  | rel handle => exact t.answerRel_commissioning p handle
  | can ticket => exact t.answerCan_commissioning p ticket
  | cnf handle => exact t.answerCnf_commissioning p handle
  | qgr handle => exact (t.keepsCore_answerQgr p handle).commissioning
  | qpl pool => exact (t.keepsCore_answerQpl p pool).commissioning
  | qpt => exact (t.keepsCore_answerQpt p).commissioning
  | qdv => rfl
  | clm mask mode watch => exact t.answerClm_commissioning p mask mode watch
  | drp mask => exact t.answerDrp_commissioning p mask
  | cnt mask => exact t.answerCnt_commissioning p mask
  | uwt mask => exact t.answerUwt_commissioning p mask
  | scp pool nominal derated => exact t.answerScp_commissioning p pool nominal derated
  | rvk handle => exact t.answerRvk_commissioning p handle
  | evc target => exact t.answerEvc_commissioning p target
  | rsr => exact (t.keepsCore_answerRsr p).commissioning
  | srd slot block => exact (t.keepsCore_inStore p _ fun u => u.keepsCore_answerSrd p slot block).commissioning
  | stg block data => exact (t.keepsCore_inStore p _ fun u => u.keepsCore_answerStg p block data).commissioning
  | chk => exact (t.keepsCore_inStore p _ fun u => u.keepsCore_answerChk p).commissioning
  | sel => exact (t.keepsCore_inStore p _ fun u => u.keepsCore_answerSel p).commissioning

/-- The commands that commissioning state allows leave the core's tables (R154). -/
theorem keepsCore_commandEffect {p : Port} {r : Request} (h : inCommissioning r.command = true) (t : State) :
    KeepsCore t (commandEffect p r t) := by
  obtain ⟨tag, command⟩ := r
  cases command with
  | qdv => exact t.core_replyWith p _ _
  | srd slot block => exact t.keepsCore_inStore p _ fun u => u.keepsCore_answerSrd p slot block
  | stg block data => exact t.keepsCore_inStore p _ fun u => u.keepsCore_answerStg p block data
  | chk => exact t.keepsCore_inStore p _ fun u => u.keepsCore_answerChk p
  | sel => exact t.keepsCore_inStore p _ fun u => u.keepsCore_answerSel p
  | _ => exact absurd h Bool.false_ne_true

/-! ## Empty tables -/

/-- What L12 asks of commissioning state: no grant, no record, no token taken, and the UNCONFIGURED copy (R153). -/
structure Vacant (s : State) : Prop where
  grant : ∀ i, s.grant? i = none
  ageList : s.ageList = []
  record : ∀ w, s.record? w = none
  token : ∀ n, s.token n = .free
  profile : s.profile = Profile.unconfigured

theorem commissioningLaw_iff {s : State} : CommissioningLaw s ↔ (s.commissioning = true → Vacant s) := by
  refine forall_congr' fun _ => ⟨?_, ?_⟩
  · rintro ⟨hgrant, hage, hrecord, htoken, hprofile⟩
    exact ⟨hgrant, hage, hrecord, htoken, hprofile⟩
  · rintro ⟨hgrant, hage, hrecord, htoken, hprofile⟩
    exact ⟨hgrant, hage, hrecord, htoken, hprofile⟩

/-- From `s` to `t` the part stays in or out of commissioning state, and empty tables stay empty. -/
structure KeepsVacant (s t : State) : Prop where
  mode : t.commissioning = s.commissioning
  vacant : Vacant s → Vacant t

theorem CommissioningLaw.keeps {s t : State} (h : CommissioningLaw s) (k : KeepsVacant s t) : CommissioningLaw t := by
  rw [commissioningLaw_iff] at h ⊢
  exact fun ht => k.vacant (h (k.mode.symm.trans ht))

namespace KeepsVacant

variable {s t u : State}

theorem refl (s : State) : KeepsVacant s s := ⟨rfl, id⟩

theorem trans (h : KeepsVacant s t) (k : KeepsVacant t u) : KeepsVacant s u :=
  ⟨k.mode.trans h.mode, fun hs => k.vacant (h.vacant hs)⟩

theorem foldl {α : Type} {f : State → α → State} (hf : ∀ s x, KeepsVacant s (f s x)) (l : List α) (s : State) :
    KeepsVacant s (l.foldl f s) := by
  induction l generalizing s with
  | nil => exact refl s
  | cons x rest ih => exact (hf s x).trans (ih (f s x))

/-- Steps that leave commissioning state, the profile and the tables that L12 is about. -/
theorem of_tables (hc : t.commissioning = s.commissioning) (hg : t.grants = s.grants) (ha : t.ageList = s.ageList)
    (hw : t.waits = s.waits) (ht : t.tokens = s.tokens) (hx : t.profile = s.profile) : KeepsVacant s t := by
  refine ⟨hc, fun h => ⟨fun i => ?_, ha.trans h.ageList, fun w => ?_, fun n => ?_, hx.trans h.profile⟩⟩
  · rw [State.grant?, State.grantSlot, hg]; exact h.grant i
  · rw [State.record?, State.waitSlot, hw]; exact h.record w
  · rw [State.token, ht]; exact h.token n

theorem of_core (h : KeepsCore s t) : KeepsVacant s t :=
  have core {α : Type} (f : State → α) : f t.core = f s.core := congrArg f h
  of_tables (core State.commissioning) (core State.grants) (core State.ageList) (core State.waits) (core State.tokens)
    (core State.profile)

/-! ## What the core does to empty tables -/

theorem post (s : State) (p : Port) (n : Notice) : KeepsVacant s (s.post p n) := .of_core (s.core_post p n)

theorem modPort (s : State) (p : Port) (f : PortCtl → PortCtl) : KeepsVacant s (s.modPort p f) :=
  .of_core (s.core_modPort p f)

theorem setSession (s : State) (p : Port) (x : Session) : KeepsVacant s (s.setSession p x) :=
  .of_tables rfl rfl rfl rfl rfl rfl

theorem modPool (s : State) (n : PoolNo) (f : Pool → Pool) : KeepsVacant s (s.modPool n f) :=
  .of_tables rfl rfl rfl rfl rfl rfl

theorem freeGrant (s : State) (i : GrantNo) : KeepsVacant s (s.freeGrant i) :=
  ⟨s.freeGrant_commissioning i, fun h => by rw [State.freeGrant_free (h.grant i)]; exact h⟩

theorem removeRecord (s : State) (w : WaitNo) : KeepsVacant s (s.removeRecord w) :=
  ⟨s.removeRecord_commissioning w, fun h => by rw [State.removeRecord_free (h.record w)]; exact h⟩

theorem freeTokens (s : State) (m : Word) : KeepsVacant s (s.freeTokens m) := by
  obtain ⟨htoken, _, _, hframe⟩ := s.freeTokens_effect m
  have rest : KeepsVacant s { s.freeTokens m with tokens := s.tokens } := by
    rw [hframe]; exact .of_tables rfl rfl rfl rfl rfl rfl
  refine ⟨rest.mode, fun h => ?_⟩
  obtain ⟨hgrant, hage, hrecord, _, hprofile⟩ := rest.vacant h
  refine ⟨hgrant, hage, hrecord, fun n => ?_, hprofile⟩
  rw [htoken n, h.token n, ite_self]

theorem closeIfDone (s : State) : KeepsVacant s s.closeIfDone := by
  rw [State.closeIfDone_eq]; exact .of_tables rfl rfl rfl rfl rfl rfl

theorem detachBare (s : State) : KeepsVacant s s.detachBare := by
  obtain ⟨_, hframe⟩ := s.detachBare_effect
  rw [hframe]; exact .of_tables rfl rfl rfl rfl rfl rfl

/-- A pass grants records alone, and there is none (R47). -/
theorem servicePass (s : State) (roots : List PoolNo) : KeepsVacant s (s.servicePass roots) := by
  refine ⟨s.servicePass_commissioning roots, State.servicePass_induct ?_ ?_ ?_ s roots⟩
  · exact fun t n b ht => (of_tables rfl rfl rfl rfl rfl rfl : KeepsVacant t (t.setMark n b)).vacant ht
  · intro t w r ht hr _
    rw [ht.record w] at hr; cases hr
  · intro t w r i ht hr _ _ _
    rw [ht.record w] at hr; cases hr

/-- A shed trims and revokes grants alone, and there is none (R87). -/
theorem shed (s : State) (n : PoolNo) : KeepsVacant s (s.shed n) := by
  refine ⟨s.shed_commissioning n, State.shed_induct ?_ ?_ s n⟩
  · intro t i g v ht hg _ _
    rw [ht.grant i] at hg; cases hg
  · intro t i g ht hg
    rw [ht.grant i] at hg; cases hg

theorem releaseHoldings (s : State) (p : Port) : KeepsVacant s (s.releaseHoldings p) := by
  have unwatched : KeepsVacant s (s.setWatch p 0) := .of_tables rfl rfl rfl rfl rfl rfl
  have records := foldl removeRecord ((s.setWatch p 0).recordsOf p) (s.setWatch p 0)
  unfold State.releaseHoldings
  dsimp only
  generalize List.foldl State.removeRecord (s.setWatch p 0) _ = t at records ⊢
  exact ((unwatched.trans records).trans (foldl freeGrant (t.grantsOf p) t)).trans (freeTokens _ _)

theorem lapseSession (s : State) (p : Port) (cause : LapseCause) : KeepsVacant s (s.lapseSession p cause) :=
  have lapsed := (releaseHoldings s p).trans (setSession _ p _)
  (((lapsed.trans (modPort _ p _)).trans (post _ p _)).trans (closeIfDone _)).trans (servicePass _ _)

theorem endRecord (s : State) (w : WaitNo) (r : WaitRecord) {told : State → State} (ht : ∀ t, KeepsVacant t (told t)) :
    KeepsVacant s (s.endRecord w r told) := by
  have ended : KeepsVacant s (told (s.removeRecord w)) := (removeRecord s w).trans (ht _)
  unfold State.endRecord
  dsimp only
  split
  · exact ended.trans (servicePass _ _)
  · exact ended

/-! ## Events -/

theorem takeExpiry {ticket : Nat} (h : s.takeExpiry ticket = some t) : KeepsVacant s t := by
  have taken : KeepsVacant s { s with expiryEvents := s.expiryEvents.erase ticket } := .of_core rfl
  unfold State.takeExpiry at h
  dsimp only at h
  split at h
  · split at h
    · cases h; exact taken
    · split at h
      · cases h; exact taken.trans (endRecord _ _ _ fun u => post u _ _)
      · cases h; exact taken
  · cases h

theorem takeLapse {p : Port} (h : s.takeLapse p = some t) : KeepsVacant s t := by
  unfold State.takeLapse at h
  split at h
  · dsimp only at h
    split at h
    · cases h; exact (modPort s p _).trans (lapseSession _ p _)
    · cases h; exact modPort s p _
  · cases h
  · cases h

theorem takeSagEvent {e : SagEvent} {effect : State → State} (he : ∀ u, KeepsVacant u (effect u))
    (h : s.takeSagEvent e effect = some t) : KeepsVacant s t := by
  have taken : KeepsVacant s { s with sagEvents := s.sagEvents.erase e } := .of_core rfl
  unfold State.takeSagEvent at h
  split at h
  · cases h; exact taken.trans (he _)
  · cases h

theorem derate (g : SagGroup) (s : State) : KeepsVacant s (s.derate g) :=
  have derated := foldl (fun t n => (modPool t n fun q => { q with derateState := .derated }).trans (shed _ n)) _ s
  (derated.trans (detachBare _)).trans (closeIfDone _)

theorem restore (g : SagGroup) (s : State) : KeepsVacant s (s.restore g) :=
  (foldl (fun t n => modPool t n _) _ s).trans (servicePass _ _)

theorem reclaimGrant (s : State) (i : GrantNo) : KeepsVacant s (s.reclaimGrant i) := by
  unfold State.reclaimGrant
  split
  · exact refl s
  · split
    · exact (freeGrant s i).trans (post _ _ _)
    · exact freeGrant s i

theorem endRecovery (s : State) (p : Port) : KeepsVacant s (s.endRecovery p) := by
  unfold State.endRecovery
  split
  · exact setSession s p _
  · exact refl s

theorem reclaimAudit (s : State) : KeepsVacant s s.reclaimAudit := by
  have reclaimed := foldl reclaimGrant (s.ageList.filter s.isAudit) s
  unfold State.reclaimAudit
  dsimp only
  generalize List.foldl State.reclaimGrant s _ = t at reclaimed ⊢
  have closed : KeepsVacant (t.freeTokens t.allAuditMask) { t.freeTokens t.allAuditMask with window := .closed } :=
    .of_tables rfl rfl rfl rfl rfl rfl
  exact (((reclaimed.trans (freeTokens t _)).trans closed).trans (foldl endRecovery _ _)).trans (servicePass _ _)

theorem takeAuditEnd (h : s.takeAuditEnd = some t) : KeepsVacant s t := by
  have taken : KeepsVacant s { s with auditEndMade := false } := .of_core rfl
  unfold State.takeAuditEnd at h
  dsimp only at h
  split at h
  · cases h
    split
    · exact taken.trans (reclaimAudit _)
    · exact taken
  · cases h

/-! ## The tick and the warm start -/

/-- A tick lowers deadlines of records, and there is none (R58). -/
theorem tickAll (s : State) (a b : Level) : KeepsVacant s (s.tickAll a b) := by
  have settled : KeepsVacant s s.settle := .of_core s.core_settle
  rw [State.tickAll_eq]
  refine settled.trans ⟨rfl, fun h => ⟨h.grant, h.ageList, fun w => ?_, h.token, h.profile⟩⟩
  have hslot : (s.settle.waits.map WaitSlot.lowered)[w] = (s.settle.waitSlot w).lowered := Vector.getElem_map _ w.isLt
  refine (congrArg WaitSlot.record hslot).trans (Option.map_eq_none_iff.2 (h.record w))

theorem warmTables (s : State) : KeepsVacant s s.warmTables := by
  obtain ⟨hprofile, hage, _, hmode⟩ := s.warmTables_keeps
  refine ⟨hmode, fun h => ⟨fun i => ?_, hage.trans h.ageList, fun w => ?_, fun n => ?_, hprofile.trans h.profile⟩⟩
  · rw [State.grant?, State.grantSlot_warmTables, h.grant i]; rfl
  · rw [State.record?, State.waitSlot_warmTables]
  · rw [State.token_warmTables, h.token n]

end KeepsVacant

namespace CommissioningLaw

variable {s : State}

/-! ## Cold starts -/

/-- A start that clears the tables loads the UNCONFIGURED copy in commissioning state (R153). -/
theorem coldTables (s : State) (kind : StartKind) : CommissioningLaw (s.coldTables kind s.profileToLoad) := by
  have cold := s.coldTables_cold kind s.profileToLoad
  obtain ⟨hprofile, _, _, hage, _, _, htoken, _⟩ := id cold
  rw [commissioningLaw_iff]
  exact fun hc => ⟨cold.grant?_none, hage, cold.record?_none, htoken,
    hprofile.trans (State.profileToLoad_commissioning hc)⟩

theorem completeWarmStart (h : CommissioningLaw s) (disturbed : Bool) :
    CommissioningLaw (s.completeWarmStart disturbed) := by
  unfold State.completeWarmStart
  dsimp only
  split
  · exact (h.keeps (.of_core s.core_beginStart)).keeps (.warmTables _)
  · exact coldTables _ _

/-! ## Every step -/

/-- In commissioning state the core refuses what could fill a table; outside it no request enters it (R154). -/
theorem answersRequest (h : CommissioningLaw s) (p : Port) (r : Request) :
    Answers CommissioningLaw (exec (stepOf p r) s) := by
  rw [exec_stepOf]
  cases htakes : s.ready.takes p r with
  | false => rw [coreRequest_not_taken htakes]; exact .next h
  | true =>
    have taken : CommissioningLaw (s.ready.took p) := h.keeps (.of_core ((s.ready.core_took p).trans s.core_ready))
    rw [coreRequest_taken ⟨htakes, rfl⟩]
    generalize s.ready.took p = t at taken ⊢
    refine .next ?_
    split
    · exact taken.keeps (.of_core (t.core_refuse p _ _))
    · rename_i hpass
      cases hallowed : inCommissioning r.command with
      | true => exact taken.keeps (.of_core (keepsCore_commandEffect hallowed t))
      | false =>
        rw [commissioningLaw_iff, commandEffect_commissioning]
        intro hc
        rw [State.sessionRefusal_commissioning hc hallowed] at hpass
        cases hpass

theorem answersEvent (h : CommissioningLaw s) {event : State → Option State}
    (he : ∀ {t u}, event t = some u → KeepsVacant t u) : Answers CommissioningLaw (coreEvent s event) :=
  coreEvent_keeps (fun k hs => hs.keeps (.of_core k)) (fun _ _ ht hu => ht.keeps (he hu)) h

/-- Every row of the table keeps the law. -/
theorem exec (h : CommissioningLaw s) (c : Instr) : Answers CommissioningLaw (exec c s) := by
  cases hc : outsideCore c with
  | true => exact (exec_outsideCore hc s).mono fun _ ht => h.keeps (.of_core ht)
  | false =>
    cases c with
    | att p tag lease => exact h.answersRequest p ⟨tag, .att lease⟩
    | det p tag => exact h.answersRequest p ⟨tag, .det⟩
    | rsv p tag pool floor max wait => exact h.answersRequest p ⟨tag, .rsv pool floor max wait⟩
    | adj p tag handle units => exact h.answersRequest p ⟨tag, .adj handle units⟩
    | rel p tag handle => exact h.answersRequest p ⟨tag, .rel handle⟩
    | can p tag ticket => exact h.answersRequest p ⟨tag, .can ticket⟩
    | cnf p tag handle => exact h.answersRequest p ⟨tag, .cnf handle⟩
    | qgr p tag handle => exact h.answersRequest p ⟨tag, .qgr handle⟩
    | qpl p tag pool => exact h.answersRequest p ⟨tag, .qpl pool⟩
    | qpt p tag => exact h.answersRequest p ⟨tag, .qpt⟩
    | qdv p tag => exact h.answersRequest p ⟨tag, .qdv⟩
    | clm p tag mask mode watch => exact h.answersRequest p ⟨tag, .clm mask mode watch⟩
    | drp p tag mask => exact h.answersRequest p ⟨tag, .drp mask⟩
    | cnt p tag mask => exact h.answersRequest p ⟨tag, .cnt mask⟩
    | uwt p tag mask => exact h.answersRequest p ⟨tag, .uwt mask⟩
    | scp p tag pool nominal derated => exact h.answersRequest p ⟨tag, .scp pool nominal derated⟩
    | rvk p tag handle => exact h.answersRequest p ⟨tag, .rvk handle⟩
    | evc p tag target => exact h.answersRequest p ⟨tag, .evc target⟩
    | rsr p tag => exact h.answersRequest p ⟨tag, .rsr⟩
    | srd p tag slot block => exact h.answersRequest p ⟨tag, .srd slot block⟩
    | stg p tag block data => exact h.answersRequest p ⟨tag, .stg block data⟩
    | chk p tag => exact h.answersRequest p ⟨tag, .chk⟩
    | sel p tag => exact h.answersRequest p ⟨tag, .sel⟩
    | lapse p => exact h.answersEvent .takeLapse
    | expiryEvent ticket => exact h.answersEvent .takeExpiry
    | derateEvent g => exact h.answersEvent (.takeSagEvent (.derate g))
    | restoreEvent g => exact h.answersEvent (.takeSagEvent (.restore g))
    | auditEnd => exact h.answersEvent .takeAuditEnd
    | tick lines disturbed =>
      show Answers CommissioningLaw (execTick lines disturbed s)
      unfold execTick
      split
      · exact .next (h.keeps ((KeepsVacant.tickAll s _ _).trans (.of_core (State.keepsCore_disturbed _ _))))
      · exact .next h
    | warmStart disturbed =>
      show Answers CommissioningLaw (execWarmStart disturbed s)
      unfold execWarmStart
      split
      · exact .next (h.completeWarmStart disturbed)
      · exact .next h
    | coldStart prog =>
      show Answers CommissioningLaw (execColdStart prog s)
      unfold execColdStart
      split
      · exact .next (coldTables _ _)
      · exact .next h
    | _ => exact absurd hc Bool.false_ne_true.symm

theorem step (h : CommissioningLaw s) : Answers CommissioningLaw (step s) := by
  unfold Machine.step
  split
  · exact .next h
  · rename_i rest _
    have dequeued : CommissioningLaw { s with pending := rest } := h.keeps (.of_core rfl)
    exact dequeued.exec _

end CommissioningLaw

/-- Settles O60: a start that clears the tables meets the law, in commissioning state every request that could fill a table is
refused, and every other step leaves empty tables empty. -/
theorem everyStepKeepsCommissioningLaw : Obligations.EveryStepKeepsCommissioningLaw :=
  fun _ t hstep h => h.step t hstep

end Sys2Proof.Machine
end

section
/-! Proofs, part 47: SRD, STG, CHK and SEL (R154 to R157, R196 to R199). -/

namespace Sys2Proof.Machine

/-! ## What validation reports -/

/-- The detail code of a fault is a byte (R149). -/
theorem ImageFault.code_lt {m : Memory} {code offset : Nat} (h : ImageFault m code offset) : code < 256 := by
  obtain ⟨c, _, _, rfl, _⟩ := h.checkFails
  exact c.code.isLt

theorem FirstFault.validate_eq {m : Memory} {code offset : Nat} (h : FirstFault m code offset) :
    validate m = some (BitVec.ofNat 8 code, offset) := by
  obtain ⟨hfault, _⟩ := id h
  rw [validate_eq_some_iff, BitVec.toNat_ofNat, Nat.mod_eq_of_lt hfault.code_lt]
  exact h

namespace State

variable {t : State} {p : Port}

/-! ## The image slots -/

theorem slotOf?_eq_none {b : Byte} (h : 3 < b.toNat) : slotOf? b = none := dif_neg (Nat.not_lt.2 h)

theorem slotOf?_eq_some {b : Byte} {i : SlotNo} (h : i.val = b.toNat) : slotOf? b = some i :=
  (dif_pos (h ▸ i.isLt)).trans (congrArg some (Fin.ext h.symm))

theorem lowestBlank_eq_find? (t : State) :
    t.lowestBlank = Fin.find? fun i => (t.imageSlot i).state == .blank := by
  rw [lowestBlank, Fin.find?_eq_find?_finRange]

theorem lowestBlank_eq_none (h : ∀ i, (t.imageSlot i).state ≠ .blank) : t.lowestBlank = none := by
  simpa [lowestBlank_eq_find?] using h

theorem lowestBlank_eq_some {i : SlotNo} (hi : (t.imageSlot i).state = .blank)
    (hlow : ∀ j, j < i → (t.imageSlot j).state ≠ .blank) : t.lowestBlank = some i := by
  rw [lowestBlank_eq_find?, Fin.find?_eq_some_iff]
  exact ⟨beq_iff_eq.2 hi, fun j hj => beq_eq_false_iff_ne.2 (hlow j hj)⟩

/-! ## Outside commissioning state -/

theorem inStore_outside (h : t.commissioning = false) (c : Command) (effect : State → State) :
    t.inStore p c effect = refusedWith t p .noRight (payloadLength c) := by
  unfold inStore; rw [h]; rfl

theorem inStore_inside (h : t.commissioning = true) (c : Command) (effect : State → State) :
    t.inStore p c effect = effect t := if_pos h

/-! ## SRD -/

theorem answerSrd_badValue {slot block : Byte} (h : 3 < slot.toNat ∨ 15 < block.toNat) :
    t.answerSrd p slot block = refusedWith t p .badValue 17 := by
  unfold answerSrd
  split
  · rfl
  · rename_i i hi
    rcases h with hslot | hblock
    · rw [slotOf?_eq_none hslot] at hi; cases hi
    · rw [if_pos hblock]; rfl

theorem answerSrd_reads {slot block : Byte} {i : SlotNo} (hi : i.val = slot.toNat) (hblock : block.toNat ≤ 15) :
    t.answerSrd p slot block = answered t p .ok ((t.imageSlot i).state.code ::
      (List.range 16).map fun k => (t.imageSlot i).contents.read (16 * block.toNat + k)) := by
  unfold answerSrd
  rw [slotOf?_eq_some hi]
  exact if_neg (Nat.not_lt.2 hblock)

/-! ## STG -/

theorem answerStg_badValue {block : Byte} {data : List Byte} (h : 15 < block.toNat) :
    t.answerStg p block data = refusedWith t p .badValue 0 := if_pos h

theorem answerStg_writes {block : Byte} {data : List Byte} (hblock : block.toNat ≤ 15) (hlength : data.length = 16) :
    t.answerStg p block data =
      answered { t with staging := t.staging.writeAll (16 * block.toNat) data } p .ok [] := by
  have hdata : data.take 16 = data := List.take_of_length_le (Nat.le_of_eq hlength)
  unfold answerStg
  rw [if_neg (Nat.not_lt.2 hblock), hdata]; rfl

/-! ## CHK -/

theorem answerChk_valid (h : ∀ code offset, ¬ ImageFault t.staging code offset) :
    t.answerChk p = answered t p .ok [0, 0] := by
  unfold answerChk; rw [validate_eq_none.2 h]; rfl

theorem answerChk_fault {code offset : Nat} (h : FirstFault t.staging code offset) :
    t.answerChk p = answered t p .stagingInvalid [BitVec.ofNat 8 code, BitVec.ofNat 8 offset] := by
  unfold answerChk; rw [h.validate_eq]; rfl

/-! ## SEL -/

theorem answerSel_fault {code offset : Nat} (h : FirstFault t.staging code offset) :
    t.answerSel p = answered t p .stagingInvalid [0, BitVec.ofNat 8 code, BitVec.ofNat 8 offset] := by
  unfold answerSel; rw [h.validate_eq]; rfl

theorem answerSel_noSlot (h : ∀ code offset, ¬ ImageFault t.staging code offset) (hnone : t.lowestBlank = none) :
    t.answerSel p = refusedWith t p .noSlot 3 := by
  unfold answerSel; rw [validate_eq_none.2 h, hnone]; rfl

theorem answerSel_begins (h : ∀ code offset, ¬ ImageFault t.staging code offset) {i : SlotNo}
    (hi : t.lowestBlank = some i) :
    t.answerSel p = { t with sealing := some { slot := i, image := t.staging.imagePart } } := by
  unfold answerSel; rw [validate_eq_none.2 h, hi]

end State

/-! ## The obligations -/

section
variable {s t : State} {p : Port} {r : Request} (h : Taken s t p r)
include h

/-- A commissioning command outside commissioning state is refused, whatever the port's rights (R154). -/
theorem coreRequest_inStore_attached (ha : Attached t p) (effect : State → State) :
    coreRequest s p r (fun u => u.inStore p r.command effect) =
      .next (refusedWith t p .noRight (payloadLength r.command)) := by
  obtain ⟨hc, _⟩ := id ha
  rw [coreRequest_attached h ha, State.inStore_outside hc]

/-- In commissioning state such a command has its effect (R154). -/
theorem coreRequest_inStore_commissioning (hc : t.commissioning = true) (hallowed : inCommissioning r.command = true)
    (effect : State → State) : coreRequest s p r (fun u => u.inStore p r.command effect) = .next (effect t) := by
  rw [coreRequest_commissioning h hc hallowed, State.inStore_inside hc]

end

/-- Settles O38: outside commissioning state the four commands are refused before their own checks; in it each branch of
SRD, STG and CHK is one answer. -/
theorem storeCommandsReadAndStage : Obligations.StoreCommandsReadAndStage := by
  refine ⟨rfl, fun s t p tag slot block data => ⟨fun ha => ⟨?_, ?_, ?_, ?_⟩, fun hc h => ?_, fun hc h hlength => ?_,
    fun hc h => ?_⟩⟩
  · exact fun h => coreRequest_inStore_attached h ha fun u => u.answerSrd p slot block
  · exact fun h => coreRequest_inStore_attached h ha fun u => u.answerStg p block data
  · exact fun h => coreRequest_inStore_attached h ha fun u => u.answerChk p
  · exact fun h => coreRequest_inStore_attached h ha fun u => u.answerSel p
  · have hexec : exec (.srd p tag slot block) s = .next (t.answerSrd p slot block) :=
      coreRequest_inStore_commissioning h hc rfl fun u => u.answerSrd p slot block
    rw [hexec]
    refine ⟨fun hbad => ?_, fun i hi hblock => ?_⟩
    · rw [State.answerSrd_badValue hbad]
    · rw [State.answerSrd_reads hi hblock]
  · have hexec : exec (.stg p tag block data) s = .next (t.answerStg p block data) :=
      coreRequest_inStore_commissioning h hc rfl fun u => u.answerStg p block data
    rw [hexec]
    refine ⟨fun hbad => ?_, fun hblock ⟨_, hwf⟩ => ⟨t.staging.writeAll (16 * block.toNat) data, ?_, fun a => ?_⟩⟩
    · rw [State.answerStg_badValue hbad]
    · rw [State.answerStg_writes hblock hlength]
    · rw [Memory.read_writeAll hwf (by omega), hlength]
  · have hexec : exec (.chk p tag) s = .next (t.answerChk p) :=
      coreRequest_inStore_commissioning h hc rfl fun u => u.answerChk p
    rw [hexec]
    refine ⟨fun hvalid => ?_, fun code offset hfault => ?_⟩
    · rw [State.answerChk_valid hvalid]
    · rw [State.answerChk_fault hfault]

/-- Settles O39: SEL reports the first fault of the buffer, or begins the seal of the lowest BLANK slot, if there is one. -/
theorem sealBeginsInLowestBlankSlot : Obligations.SealBeginsInLowestBlankSlot := by
  intro s t p tag h hc
  have hexec : exec (.sel p tag) s = .next (t.answerSel p) :=
    coreRequest_inStore_commissioning h hc rfl fun u => u.answerSel p
  rw [hexec]
  refine ⟨fun code offset hfault => ?_, fun hvalid hnone => ?_, fun i hvalid hi hlow => ?_⟩
  · rw [State.answerSel_fault hfault]
  · rw [State.answerSel_noSlot hvalid (State.lowestBlank_eq_none hnone)]
  · exact ⟨_, congrArg _ (State.answerSel_begins hvalid (State.lowestBlank_eq_some hi hlow)), t.staging.read_imagePart⟩

end Sys2Proof.Machine
end

section
/-! Proofs, part 48: how a seal ends (R144, R148, R157, R199). -/

namespace Sys2Proof.Machine

/-! ## Images that agree in bytes 0 to 252 -/

/-- The two memories hold the same bytes 0 to 252: the same image (R146). -/
def SameImage (m n : Memory) : Prop := ∀ a, a < 253 → n.read a = m.read a

namespace SameImage

variable {m n : Memory} {code offset : Nat}

theorem word (h : SameImage m n) {a : Nat} (ha : a < 252) : imageWord n a = imageWord m a := by
  rw [imageWord, imageWord, h a (by omega), h (a + 1) (by omega)]

theorem crc (h : SameImage m n) : imageCrc n = imageCrc m := by
  refine congrArg crc16 (List.map_congr_left fun a ha => h _ ?_)
  rw [Nat.zero_add]; exact List.mem_range.1 ha

theorem poolFault (h : SameImage m n) {k : PoolNo} : PoolFault n k code offset ↔ PoolFault m k code offset := by
  simp (disch := omega) only [PoolFault, h _, h.word]

theorem portFault (h : SameImage m n) {p : Port} : PortFault n p code offset ↔ PortFault m p code offset := by
  simp (disch := omega) only [PortFault, h _, h.word]

/-- Every fault of an image is found in its bytes (R149). -/
theorem fault (h : SameImage m n) : ImageFault n code offset ↔ ImageFault m code offset := by
  have limits {a b low high : Nat} (ha : a < 252) (hb : b < 252) :
      (offset = a ∨ offset = b) ∧ ¬ (low ≤ imageWord n offset ∧ imageWord n offset ≤ high) ↔
        (offset = a ∨ offset = b) ∧ ¬ (low ≤ imageWord m offset ∧ imageWord m offset ≤ high) :=
    and_congr_right fun ho => by rw [h.word (by omega)]
  have reserved : offset < 253 ∧ n.read offset ≠ 0xFF ↔ offset < 253 ∧ m.read offset ≠ 0xFF :=
    and_congr_right fun ho => by rw [h offset ho]
  simp (disch := omega) only [ImageFault, h _, h.word, h.poolFault, h.portFault, limits, reserved]

theorem validate (h : SameImage m n) : validate n = none ↔ validate m = none := by
  simp only [validate_eq_none, h.fault]

end SameImage

/-! ## The writes of a seal -/

/-- The image's CRC-16 stands in two bytes, high byte first (R148). -/
theorem word_of_bytes (c : Word) : (c.extractLsb' 8 8).toNat * 256 + (c.extractLsb' 0 8).toNat = c.toNat := by
  have hc := c.isLt
  simp only [BitVec.extractLsb'_toNat, Nat.shiftRight_eq_div_pow]
  omega

theorem sealAddress_of_lt {k : Nat} (h : k < 253) : sealAddress k = k := if_pos h

theorem sealByte_of_lt {m : Memory} {k : Nat} (h : k < 253) : sealByte m k = m.read k := if_pos h

namespace Memory

variable {image before : Memory}

/-- A whole seal of a slot that reads blank leaves every byte as intended (R157). -/
theorem read_sealWrites_blank (hwf : before.wf) (hblank : before.isBlank = true) {k : Nat} (hk : k < 256) :
    (sealWrites image 256 before).read (sealAddress k) = sealByte image k := by
  rw [read_sealWrites hwf (Nat.le_refl _) hk, if_pos hk]
  exact readsBack_iff.1 (readsBack_of_isBlank hblank 256) k hk

/-- What a whole seal of a slot that reads blank leaves (R148, R157). -/
structure HoldsSealed (image m : Memory) : Prop where
  same : SameImage image m
  mark : m.read 253 = 0x5A
  crc : imageWord m 254 = (imageCrc image).toNat

theorem holdsSealed_sealWrites (hwf : before.wf) (hblank : before.isBlank = true) :
    HoldsSealed image (sealWrites image 256 before) := by
  have hread {k : Nat} (hk : k < 256) := read_sealWrites_blank (image := image) hwf hblank hk
  obtain ⟨hhigh, hlow, hmark⟩ := sealByte_tail image
  refine ⟨fun a ha => ?_, (hread (k := 255) (by decide)).trans hmark, ?_⟩
  · have hbyte := hread (Nat.lt_trans ha (by decide))
    rwa [sealAddress_of_lt ha, sealByte_of_lt ha] at hbyte
  · have hcrc1 : (sealWrites image 256 before).read 254 = (imageCrc image).extractLsb' 8 8 :=
      (hread (k := 253) (by decide)).trans hhigh
    have hcrc2 : (sealWrites image 256 before).read 255 = (imageCrc image).extractLsb' 0 8 :=
      (hread (k := 254) (by decide)).trans hlow
    rw [imageWord, hcrc1, hcrc2, word_of_bytes]

/-- A slot that holds a valid image, its CRC-16 and the mark is SEALED (R144). -/
theorem HoldsSealed.classify {m : Memory} (h : HoldsSealed image m)
    (hvalid : ∀ code offset, ¬ ImageFault image code offset) : classify m = .sealed := by
  have hnot : m.isBlank = false := by
    rw [← Bool.not_eq_true, isBlank_iff]
    intro hblank
    have hmark := h.mark
    rw [hblank 253 (by decide)] at hmark
    exact absurd hmark (by decide)
  exact classify_sealed.2 ⟨hnot, h.mark, h.crc.trans (congrArg BitVec.toNat h.same.crc.symm),
    h.same.validate.2 (validate_eq_none.2 hvalid)⟩

end Memory

/-! ## The end of a seal -/

namespace State

variable {s : State} {w : Seal} {before m : Memory}

/-! Each end of a seal, and what rules it out by the bytes of the slot (R157, log entry 11). -/

theorem sealedContents_whole (h : readsBack w.image before 256 = true) :
    sealedContents w before .whole = some (sealWrites w.image 256 before) := if_pos h

theorem sealedContents_whole_none (h : ¬ readsBack w.image before 256 = true) :
    sealedContents w before .whole = none := if_neg h

theorem sealedContents_foundOtherwise (h : readsBack w.image before 256 = true) {turned : List (Nat × Byte)}
    (ht : ∀ c ∈ turned, c.1 < 256) :
    sealedContents w before (.foundOtherwise turned) = some ((sealWrites w.image 256 before).programAll turned) :=
  if_pos ⟨h, by simpa using ht⟩

theorem sealedContents_foundOtherwise_none (h : ¬ readsBack w.image before 256 = true) (turned : List (Nat × Byte)) :
    sealedContents w before (.foundOtherwise turned) = none := if_neg fun hc => h hc.1

theorem sealedContents_readBackDiffers {k : Nat} {v : Byte} (hk : k < 256) (h : readsBack w.image before k = true)
    (hv : before.read (sealAddress k) &&& v ≠ sealByte w.image k) :
    sealedContents w before (.readBackDiffers k v) = some ((sealWrites w.image k before).program (sealAddress k) v) :=
  if_pos ⟨hk, h, hv⟩

theorem sealedContents_readBackDiffers_none {k : Nat} {v : Byte}
    (h : ¬ readsBack w.image before k = true ∨ before.read (sealAddress k) &&& v = sealByte w.image k) :
    sealedContents w before (.readBackDiffers k v) = none :=
  if_neg fun ⟨_, hback, hv⟩ => h.elim (fun hn => hn hback) hv

/-- The seal's slot holds the memory given in the state given, and SEL, the request `r` of P0, is answered (R157, R199). -/
def sealEnded (s : State) (w : Seal) (r : Request) (m : Memory) (kept : SlotState) : State :=
  ({ s with slots := s.slots.set w.slot { contents := m, state := kept }, sealing := none } : State).modPort 0 fun c =>
    { c with
      processing := none
      reply := some (replyIn s 0 (if kept = .sealed then .ok else .sealFailed) r.tag [BitVec.ofNat 8 w.slot, 0, 0]) }

theorem finishSeal_eq {r : Request} (hr : (s.port 0).processing = some r) (result : SealResult) :
    s.finishSeal w m result = s.sealEnded w r m (sealedState m result) := by
  generalize ht : ({ s.setImageSlot w.slot { contents := m, state := sealedState m result } with sealing := none } :
    State) = t
  have hprocessing : (t.port 0).processing = some r := by rw [← ht]; exact hr
  unfold finishSeal placeSealReply
  dsimp only
  rw [ht, hprocessing]
  refine (placeReply_modPort t 0 (fun c => { c with processing := none }) _ _ _ rfl rfl).trans ?_
  rw [← ht]; rfl

section
variable (hactive : s.phase = .running ∨ s.phase = .resetTaking) (hw : s.sealing = some w)
include hactive hw

theorem exec_sealEnd_ends {r : Request} (hr : (s.port 0).processing = some r) {result : SealResult}
    (hm : sealedContents w (s.imageSlot w.slot).contents result = some m) :
    exec (.sealEnd result) s = .next (s.sealEnded w r m (sealedState m result)) := by
  show execSealEnd result s = _
  unfold execSealEnd
  rw [hw]
  simp only [coreActive_iff.2 hactive, if_true, hm, finishSeal_eq hr]

/-- An end that the slot's bytes rule out cannot come about (log entry 11). -/
theorem exec_sealEnd_ruledOut {result : SealResult}
    (hm : sealedContents w (s.imageSlot w.slot).contents result = none) : exec (.sealEnd result) s = .next s := by
  show execSealEnd result s = _
  unfold execSealEnd
  rw [hw]
  simp only [coreActive_iff.2 hactive, if_true, hm]

end

end State

/-- The check value of the CRC-16 (R148). -/
theorem crc16_check : crc16 [0x31, 0x32, 0x33, 0x34, 0x35, 0x36, 0x37, 0x38, 0x39] = 0x29B1 := by decide +kernel

/-- The order and the values of a seal's 256 writes (R148, R157). -/
theorem sealWrites_in_order (m : Memory) :
    imageCrc m = crc16 ((List.range 253).map fun a => m.read a) ∧
      (∀ k, k < 253 → sealAddress k = k ∧ sealByte m k = m.read k) ∧
      sealAddress 253 = 254 ∧ sealByte m 253 = (imageCrc m).extractLsb' 8 8 ∧
      sealAddress 254 = 255 ∧ sealByte m 254 = (imageCrc m).extractLsb' 0 8 ∧
      sealAddress 255 = 253 ∧ sealByte m 255 = 0x5A := by
  obtain ⟨hhigh, hlow, hmark⟩ := Memory.sealByte_tail m
  refine ⟨?_, fun k hk => ⟨sealAddress_of_lt hk, sealByte_of_lt hk⟩, rfl, hhigh, rfl, hlow, rfl, hmark⟩
  simp only [imageCrc, Memory.readRange, Nat.zero_add]

/-- A seal that ends at the read-back of write `k` leaves the later bytes as they were (R157 step 5). -/
theorem Memory.read_readBackDiffers {image before : Memory} (hwf : before.wf) {k : Nat} (hk : k < 256) (v : Byte)
    {j : Nat} (hj : j < 256) : ((sealWrites image k before).program (sealAddress k) v).read (sealAddress j) =
      if j < k then before.read (sealAddress j) &&& sealByte image j
      else if j = k then before.read (sealAddress j) &&& v else before.read (sealAddress j) := by
  rw [read_program (sealWrites_wf k hwf), read_sealWrites hwf (Nat.le_of_lt hk) hj,
    read_sealWrites hwf (Nat.le_of_lt hk) hk]
  by_cases he : j = k
  · subst he; simp
  · rw [if_neg fun h => he (sealAddress_inj hj hk h), if_neg he]

/-- Settles O40: each end of a seal leaves the slot what its writes leave of the bytes before, and is answered by the state
the slot is left in; an end that those bytes rule out leaves the part as it is. -/
theorem sealEndsSealedOrDamaged : Obligations.SealEndsSealedOrDamaged := by
  refine ⟨⟨crc16_check, sealWrites_in_order⟩, ?_⟩
  intro s w r hactive hw hr ⟨hslots, _⟩ _ before readsBack ended
  have hwf : before.wf := hslots w.slot
  have back {n : Nat} : State.readsBack w.image before n = true ↔ readsBack n := Memory.readsBack_iff
  have ends {result : SealResult} {m : Memory} (hm : State.sealedContents w before result = some m) :
      exec (.sealEnd result) s = .next (ended m (State.sealedState m result)) := State.exec_sealEnd_ends hactive hw hr hm
  have ruledOut {result : SealResult} (hm : State.sealedContents w before result = none) :
      exec (.sealEnd result) s = .next s := State.exec_sealEnd_ruledOut hactive hw hm
  refine ⟨fun hvalid hblank => ?_, fun k v hk hback hv => ?_, fun turned hturned hback => ?_, fun hback => ?_,
    fun k v h => ?_⟩
  · have holds := Memory.holdsSealed_sealWrites (image := w.image) hwf hblank
    have hsealed := holds.classify hvalid
    have hexec := ends (State.sealedContents_whole (Memory.readsBack_of_isBlank hblank 256))
    rw [State.sealedState, if_pos hsealed] at hexec
    exact ⟨_, holds.same, holds.mark, holds.crc, hsealed, hexec⟩
  · have hread {j : Nat} (hj : j < 256) := Memory.read_readBackDiffers (image := w.image) hwf hk v hj
    refine ⟨_, fun j hj => ?_, ?_, fun j hkj hj => ?_, ends (State.sealedContents_readBackDiffers hk (back.2 hback) hv)⟩
    · rw [hread (Nat.lt_trans hj hk), if_pos hj]
    · rw [hread hk, if_neg (Nat.lt_irrefl k), if_pos rfl]
    · rw [hread hj, if_neg (Nat.lt_asymm hkj), if_neg (Nat.ne_of_gt hkj)]
  · refine ⟨_, fun j hj => ?_, ends (State.sealedContents_foundOtherwise (back.2 hback) hturned)⟩
    rw [Memory.read_programAll (Memory.sealWrites_wf 256 hwf) hturned, Memory.read_sealWrites hwf (Nat.le_refl _) hj,
      if_pos hj]
  · have hnot := mt back.1 hback
    exact ⟨ruledOut (State.sealedContents_whole_none hnot), fun turned =>
      ruledOut (State.sealedContents_foundOtherwise_none hnot turned)⟩
  · exact ruledOut (State.sealedContents_readBackDiffers_none (h.imp_left fun hn => mt back.1 hn))

end Sys2Proof.Machine
end

section
/-! Proofs, part 49: what a transaction shifts, decided as CSN falls, and the transactions whose frame asks for nothing or is
discarded (R160 to R162, R167, R168). -/

namespace Sys2Proof.Machine

/-! ## The fall of CSN -/

namespace State

variable {s : State} {p : Port}

theorem decideTransaction_notRunning (h : s.phase ≠ .running) : s.decideTransaction p =
    { kind := .notReady, reply := { status := .notReady, tag := 0, flags := 0, payload := [] } } := by
  unfold decideTransaction; rw [if_pos h]

theorem decideTransaction_processing (h : s.phase = .running) {r : Request} (hr : (s.port p).processing = some r) :
    s.decideTransaction p = { kind := .pending, reply := replyIn s p .pending r.tag [] } := by
  unfold decideTransaction; rw [if_neg (not_not.2 h), hr]; rfl

theorem decideTransaction_reply (h : s.phase = .running) (hnone : (s.port p).processing = none) {r : Reply}
    (hr : (s.port p).reply = some r) : s.decideTransaction p = { kind := .fromSlot, reply := r } := by
  unfold decideTransaction; rw [if_neg (not_not.2 h), hnone, hr]

theorem decideTransaction_noReply (h : s.phase = .running) (hnone : (s.port p).processing = none)
    (hr : (s.port p).reply = none) :
    s.decideTransaction p = { kind := .noReply, reply := replyIn s p .noReply 0 [] } := by
  unfold decideTransaction; rw [if_neg (not_not.2 h), hnone, hr]; rfl

end State

/-- With power and CSN high before, the fall of CSN begins a transaction and nothing else (R161). -/
theorem exec_csnFall {s : State} {p : Port} (hpower : s.phase ≠ .off) (hidle : (s.port p).transaction = none) :
    exec (.csnFall p) s = .next (s.modPort p fun c => { c with transaction := some (s.decideTransaction p) }) := by
  have hbegins : ¬ (s.phase = .off ∨ (s.port p).transaction.isSome = true) := by simp [hpower, hidle]
  show execCsnFall p s = _
  unfold execCsnFall; rw [if_neg hbegins]

/-- Settles O4: the transaction that begins is that of `State.decideTransaction`, case by case in R161's order. -/
theorem csnFallDecidesReply : Obligations.CsnFallDecidesReply := fun s p hpower hidle =>
  ⟨s.decideTransaction p, exec_csnFall hpower hidle, State.decideTransaction_notRunning,
    fun hrun _ hr => State.decideTransaction_processing hrun hr,
    fun hrun hnone _ hr => State.decideTransaction_reply hrun hnone hr, State.decideTransaction_noReply⟩

/-! ## A FILL, and a transaction of no whole byte -/

/-- The examinations that end a transaction by the row FILL do nothing after the consumption (R160; log entry 13). -/
theorem exec_fill_of_rises {s t : State} {p : Port} {mosi : List Byte} (h : Rises s t p mosi)
    (hm : examine mosi = .fill ∨ examine mosi = .noByte) : exec (.fill p mosi) s = .next t := by
  show execFill p mosi s = _
  unfold execFill
  rcases hm with hm | hm <;> rw [hm] <;> exact csnRise_of_rises h id

/-- Settles O8: both transactions end by the row FILL, which places nothing. -/
theorem fillPlacesNothing : Obligations.FillPlacesNothing := by
  rintro s t p mosi (rfl | hfirst) hrises
  · exact exec_fill_of_rises hrises (.inr examine_nil)
  · obtain ⟨rest, rfl⟩ := List.head?_eq_some_iff.1 hfirst
    exact exec_fill_of_rises hrises (.inl (examine_fill rest))

/-! ## Transactions whose frame is discarded -/

namespace Reply

theorem length_shifted (r : Reply) (n : Nat) : (r.shifted n).length = n := by simp [shifted]

theorem getD_shifted (r : Reply) {i n : Nat} (h : i < n) (b : Byte) : (r.shifted n).getD i b = r.bytes.getD i 0xFF := by
  simp [shifted, Config.fill, h]

/-- The bytes a transaction of `n` bytes shifts that a reset cut after `before` of them (R168; log entry 14). -/
def shiftedCut (r : Reply) (before n : Nat) : List Byte :=
  r.shifted (min before n) ++ List.replicate (n - before) Config.fill

theorem length_shiftedCut (r : Reply) (before n : Nat) : (r.shiftedCut before n).length = n := by
  rw [shiftedCut, List.length_append, length_shifted, List.length_replicate]
  omega

theorem getD_shiftedCut (r : Reply) (before : Nat) {i n : Nat} (h : i < n) :
    (r.shiftedCut before n).getD i 0 = if i < before then r.bytes.getD i 0xFF else 0xFF := by
  unfold shiftedCut
  split
  · have hshifted : i < min before n := by omega
    rw [List.getD_append _ _ _ _ (by rwa [length_shifted]), getD_shifted r hshifted]
  · have hcut : min before n ≤ i := by omega
    have hfill : i - min before n < n - before := by omega
    rw [List.getD_append_right _ _ _ _ (by rwa [length_shifted]), length_shifted, List.getD_replicate _ hfill]
    rfl

end Reply

section
variable {s : State} {p : Port} {x : Transaction} (hx : (s.port p).transaction = some x)
include hx

theorem exec_pending (hk : x.kind = .pending) (mosi : List Byte) :
    exec (.pending p mosi) s = .next (s.closeTransaction p (x.reply.shifted mosi.length)) := by
  show execPending p mosi s = _
  unfold execPending; rw [hx]; exact if_pos hk

theorem exec_notReady (hk : x.kind = .notReady) (mosi : List Byte) (before : Nat) :
    exec (.notReady p mosi before) s = .next (s.closeTransaction p (x.reply.shifted mosi.length)) := by
  show execNotReady p mosi before s = _
  unfold execNotReady; rw [hx]; dsimp only; rw [hk]

theorem exec_notReady_cut (hk : x.kind = .cut) (mosi : List Byte) (before : Nat) :
    exec (.notReady p mosi before) s = .next (s.closeTransaction p (x.reply.shiftedCut before mosi.length)) := by
  show execNotReady p mosi before s = _
  unfold execNotReady; rw [hx]; dsimp only; rw [hk]; rfl

end

/-- Settles O11: each kind closes the transaction with the bytes it shifted, and does nothing else. -/
theorem discardedTransactionsEnd : Obligations.DiscardedTransactionsEnd := fun _ _ mosi before x hx =>
  ⟨fun hk => exec_pending hx hk mosi, fun hk => exec_notReady hx hk mosi before,
    fun hk => ⟨x.reply.shiftedCut before mosi.length, x.reply.length_shiftedCut before mosi.length,
      fun _ hi => x.reply.getD_shiftedCut before hi, exec_notReady_cut hx hk mosi before⟩⟩

end Sys2Proof.Machine
end

section
/-! Proofs, part 50: the codes, lengths and layouts of the request frames (R163, R173). -/

namespace Sys2Proof

/-- The check value of the CRC-8 (R163). -/
theorem crc8_check : crc8 [0x31, 0x32, 0x33, 0x34, 0x35, 0x36, 0x37, 0x38, 0x39] = 0xF4 := by decide +kernel

/-- R173's command codes, each with its frame's length. -/
def frameTable : List (Byte × Nat) :=
  [(0x01, 3), (0x02, 3), (0x03, 3), (0x10, 5), (0x11, 3), (0x20, 10), (0x21, 7), (0x22, 5), (0x23, 5), (0x24, 5), (0x28, 5),
    (0x29, 4), (0x2A, 3), (0x2B, 3), (0x30, 7), (0x31, 5), (0x32, 5), (0x33, 5), (0x40, 8), (0x41, 5), (0x42, 4), (0x43, 3),
    (0x60, 5), (0x61, 20), (0x62, 3), (0x63, 3)]

theorem frameLength_of_mem_frameTable : ∀ x ∈ frameTable, frameLength x.1 = some x.2 := by decide

/-- Each arm of `frameLength` is an entry of the table. -/
theorem mem_frameTable_of_frameLength {code : Byte} {n : Nat} (h : frameLength code = some n) : (code, n) ∈ frameTable := by
  obtain ⟨k, hk⟩ : ∃ k, code.toNat = k := ⟨_, rfl⟩
  obtain rfl : code = BitVec.ofNat 8 k := BitVec.eq_of_toNat_eq (by simp [← hk])
  unfold frameLength at h
  rw [hk] at h
  split at h <;> cases h <;> decide

/-- The known codes, with their lengths, are those of the table and no others (R166, R173). -/
theorem frameLength_eq_some_iff (code : Byte) (n : Nat) : frameLength code = some n ↔ (code, n) ∈ frameTable :=
  ⟨mem_frameTable_of_frameLength, frameLength_of_mem_frameTable (code, n)⟩

/-- Settles O15: the examination undoes the layouts (`examine_requestFrame`), and each command's layout is R173's. -/
theorem framesReadBackAsRequests : Obligations.FramesReadBackAsRequests := by
  refine ⟨fun _ more hwf => examine_requestFrame hwf more, crc8_check, frameLength_eq_some_iff, fun tag c => ?_⟩
  cases c <;> rfl

end Sys2Proof
end

section
/-! Proofs, part 51: QGR, QPL and QDV (R184, R185, R187). -/

namespace Sys2Proof.Machine

namespace State

variable {t : State} {p : Port}

theorem answerQgr_badHandle {handle : Word} (h : ∀ i g, ¬ NamesGrant t handle i g) :
    t.answerQgr p handle = refusedWith t p .badHandle 7 := by
  unfold answerQgr; rw [resolveHandle_eq_none.2 h]; rfl

theorem answerQgr_reports {handle : Word} {i : GrantNo} {g : Grant} (h : NamesGrant t handle i g) :
    t.answerQgr p handle = answered t p .ok (qgrPayload g) := by
  unfold answerQgr; rw [resolveHandle_eq_some.2 h]; rfl

theorem answerQpl_badPool {pool : Byte} (h : ∀ n : PoolNo, n.val = pool.toNat → (t.pool n).defined = false) :
    t.answerQpl p pool = refusedWith t p .badPool 19 := by
  unfold answerQpl; rw [definedPool?_eq_none.2 h]; rfl

theorem answerQpl_reports {pool : Byte} {n : PoolNo} (hn : n.val = pool.toNat) (hd : (t.pool n).defined = true) :
    t.answerQpl p pool = answered t p .ok (t.qplPayload p n) := by
  unfold answerQpl; rw [definedPool?_eq_some.2 ⟨hn, hd⟩]; rfl

/-- The fields of a QGR reply (R173, R184). -/
theorem qgrPayload_eq (g : Grant) : qgrPayload g =
    [if g.state = .active then 0x01 else 0x02, BitVec.ofNat 8 g.port, BitVec.ofNat 8 g.pool] ++
      wordField g.units ++ wordField g.floor := by
  have hstate : g.state.code = if g.state = .active then 0x01 else 0x02 := by cases g.state <;> rfl
  unfold qgrPayload; rw [hstate]; rfl

/-- The effective capacity, by the derate state (R4). -/
theorem effective_eq_ite (q : Pool) : q.effective = if q.derateState = .derated then q.derated else q.nominal := by
  split
  · exact effective_of_derated ‹_›
  · cases h : q.derateState with
    | normal => exact effective_of_normal h
    | derated => contradiction

/-- QDV's reply, its commissioning field spelt by the state it shows (R173, R187). -/
theorem qdvPayload_eq : t.qdvPayload =
    wordField t.profile.version ++ [t.startKind.code, BitVec.ofNat 8 t.restartCount] ++ wordField t.window.remaining ++
      [if t.commissioning then 0x01 else 0x00, BitVec.ofNat 8 t.profile.tokenCount,
        BitVec.ofNat 8 (64 - t.liveGrants.length), BitVec.ofNat 8 (32 - t.liveRecords.length)] ++
      t.profile.siteLabel.toList := by
  unfold qdvPayload
  cases t.commissioning <;> rfl

end State

/-- QDV is answered in every session state, and in commissioning state too (R102, R154, R187). -/
theorem exec_qdv {s t : State} {p : Port} {tag : Byte} (h : Taken s t p ⟨tag, .qdv⟩) :
    exec (.qdv p tag) s = .next (answered t p .ok t.qdvPayload) := by
  cases hc : t.commissioning with
  | false => exact coreRequest_anySession h hc rfl fun u => u.replyWith p .ok u.qdvPayload
  | true => exact coreRequest_commissioning h hc rfl fun u => u.replyWith p .ok u.qdvPayload

/-- Settles O30: what the handle or the pool byte names decides between the report and the refusal. -/
theorem queriesReportAndChangeNothing : Obligations.QueriesReportAndChangeNothing := by
  refine ⟨⟨rfl, fun _ => rfl, rfl, rfl, rfl, rfl⟩, fun s t p tag handle pool => ?_⟩
  have hqgr (h : Taken s t p ⟨tag, .qgr handle⟩) (ha : Attached t p) :
      exec (.qgr p tag handle) s = .next (t.answerQgr p handle) := coreRequest_attached h ha fun u => u.answerQgr p handle
  have hqpl (h : Taken s t p ⟨tag, .qpl pool⟩) (ha : Attached t p) :
      exec (.qpl p tag pool) s = .next (t.answerQpl p pool) := coreRequest_attached h ha fun u => u.answerQpl p pool
  refine ⟨fun h ha hnone => ?_, fun i g h ha hg => ?_, fun h ha hnone => ?_, fun n h ha hn hd => ?_, fun h => ?_⟩
  · rw [hqgr h ha, State.answerQgr_badHandle hnone]
  · rw [hqgr h ha, State.answerQgr_reports hg, State.qgrPayload_eq]
  · rw [hqpl h ha, State.answerQpl_badPool hnone]
  · rw [hqpl h ha, State.answerQpl_reports hn hd, ← Pool.room_eq, ← State.effective_eq_ite]; rfl
  · rw [exec_qdv h, State.qdvPayload_eq]

end Sys2Proof.Machine
end

section
/-! Proofs, part 52: what a step does with the queue (log entries 2 and 3). -/

namespace Sys2Proof.Machine

section
variable {s : State}

/-- With an empty queue the part idles (log entry 3). -/
theorem step_of_pending_nil (hempty : s.pending = []) : step s = .next s := by
  unfold step; rw [hempty]

/-- A step takes the command at the front off the queue and runs it on what is left (log entry 2). -/
theorem step_of_pending_cons {c : Instr} {rest : List Instr} (hfront : s.pending = c :: rest) :
    step s = exec c { s with pending := rest } := by
  unfold step; rw [hfront]

end

/-- Settles O1: the queue is empty or has a front. What the state's own queue was before a queue is put in its place does
not matter. -/
theorem stepTakesFrontOfQueue : Obligations.StepTakesFrontOfQueue :=
  ⟨fun _ _ _ => step_of_pending_cons rfl, fun _ hempty => step_of_pending_nil hempty⟩

end Sys2Proof.Machine
end
